-- ==== Sys2Proof/Word.lean ====
section
/-! DEFINITION. The bit-vector types of PNGCRC (00_scope.md R9, R10; 30_encoding.md R70). -/

namespace Sys2Proof

/-- A register value or the data of a bus transaction: 32 bits (R9, R10). -/
abbrev Word := BitVec 32

/-- One input byte: 8 bits (R12, R73). -/
abbrev Byte := BitVec 8

/-- A byte offset into the register window of 256 bytes (R50, R70). -/
abbrev Offset := BitVec 8

/-- A transaction word: W in bit 40, OFF in bits 39:32, WDATA in bits 31:0 (R70). -/
abbrev Txn := BitVec 41

end Sys2Proof
end

