-- ==== Sys2Proof/Config.lean ====
section
/-! DEFINITION. What the spec leaves to the platform or gives no form: constants without a body, so that no
proof can see a value of them. -/

namespace Sys2Proof

/-- BASE, the platform address of offset 0x00 (00_scope.md R9; 92_eei_decisions.md D4, OPEN; I7 'parameter').
No rule depends on its value. Log entry 5. -/
opaque Config.base : Nat

/-- Whether the platform decodes aliases of the window, and which offset an address outside the window then selects: left
to the platform (20_memory.md R59). No rule depends on it. Log entry 5. -/
opaque Config.aliasOffset : Nat → Option Offset

/-- The text that `to_display_text` gives for a container's bytes: a value of no fixed form, on which no
claim may depend (45_host.md R263; I12 'any value'). Log entry 7. -/
opaque Config.displayText : List Byte → List Char

end Sys2Proof
end

