-- ==== Sys2Proof/Syntax.lean ====
section
/-! DEFINITION. The instructions of PNGCRC: the host's bus transactions, one constructor per row of
spec/opcode_table.json (30_encoding.md R74). The operands are the fields of the row's encoding; the bits of WDATA
that a row ignores are an operand too, so that an instruction holds every bit of its word. -/

namespace Sys2Proof

/-- The seventeen named registers of the window (10_state.md R23). -/
inductive Reg where
  | id | version | ctrl | status | crcState | crcValue | din8 | din32 | tag | len | rxcrc | rem | pos
  | chunks | cstart | tagchk | tagres
  deriving DecidableEq, Repr

/-- A transaction kind, as 30_encoding.md R74 lists them. -/
inductive Instr where
  | rdId (ignored : Word)
  | wrId (value : Word)
  | rdVersion (ignored : Word)
  | wrVersion (value : Word)
  | rdCtrl (ignored : Word)
  | cmdNop (ignored : BitVec 28)
  | cmdCrcStart (ignored : BitVec 28)
  | cmdFrameStart (ignored : BitVec 28)
  | cmdChunkStart (ignored : BitVec 28)
  | cmdStreamStart (ignored : BitVec 28)
  | cmdEnd (ignored : BitVec 28)
  | cmdAbort (ignored : BitVec 28)
  | cmdClrIgn (ignored : BitVec 28)
  /-- A reserved command: `cmd` is 0x8 to 0xF (R116). -/
  | cmdReserved (cmd : BitVec 4) (ignored : BitVec 28)
  | rdStatus (ignored : Word)
  | wrStatus (value : Word)
  | rdCrcState (ignored : Word)
  | wrCrcState (value : Word)
  | rdCrcValue (ignored : Word)
  | wrCrcValue (value : Word)
  | rdDin8 (ignored : Word)
  | wrDin8 (byte : Byte) (ignored : BitVec 24)
  | rdDin32 (ignored : Word)
  | wrDin32 (byte0 byte1 byte2 byte3 : Byte)
  | rdTag (ignored : Word)
  | wrTag (value : Word)
  | rdLen (ignored : Word)
  | wrLen (value : Word)
  | rdRxcrc (ignored : Word)
  | wrRxcrc (value : Word)
  | rdRem (ignored : Word)
  | wrRem (value : Word)
  | rdPos (ignored : Word)
  | wrPos (value : Word)
  | rdChunks (ignored : Word)
  | wrChunks (value : Word)
  | rdCstart (ignored : Word)
  | wrCstart (value : Word)
  | rdTagchk (ignored : Word)
  | wrTagchk (value : Word)
  | rdTagres (ignored : Word)
  | wrTagres (value : Word)
  /-- A read with OFF[0] = 1: the first RD_MISALIGNED row (R110). -/
  | rdMisalignedOdd (off : Offset) (ignored : Word)
  /-- A read with OFF[1:0] = 10: the second RD_MISALIGNED row (R110). -/
  | rdMisalignedEven (off : Offset) (ignored : Word)
  /-- A write with OFF[0] = 1: the first WR_MISALIGNED row (R107). -/
  | wrMisalignedOdd (off : Offset) (ignored : Word)
  /-- A write with OFF[1:0] = 10: the second WR_MISALIGNED row (R107). -/
  | wrMisalignedEven (off : Offset) (ignored : Word)
  /-- A read of an aligned reserved offset, 0x44 to 0xFC (R120). -/
  | rdReserved (off : Offset) (ignored : Word)
  /-- A write to an aligned reserved offset, 0x44 to 0xFC (R108). -/
  | wrReserved (off : Offset) (ignored : Word)
  deriving DecidableEq, Repr

end Sys2Proof
end

