-- ==== Sys2Proof/WellFormed.lean ====
section
/-! DEFINITION. Which terms of `Instr` are transactions: the operands whose bits a row of the opcode table fixes in
part (30_encoding.md R74, R76). Every other operand has exactly the bits its row leaves free. -/

namespace Sys2Proof

/-- OFF[0] = 1: the offsets of the first misaligned rows. -/
def misalignedOddOffset (off : Offset) : Bool := off.getLsbD 0

/-- OFF[1:0] = 10: the offsets of the second misaligned rows. -/
def misalignedEvenOffset (off : Offset) : Bool := !off.getLsbD 0 && off.getLsbD 1

/-- An aligned offset from 0x44 to 0xFC (10_state.md R43). -/
def reservedOffset (off : Offset) : Bool := !off.getLsbD 0 && !off.getLsbD 1 && decide (0x44#8 ≤ off)

/-- A CMD value from 0x8 to 0xF (40_control.md R116). -/
def reservedCommand (cmd : BitVec 4) : Bool := cmd.getLsbD 3

/-- The check of an instruction's operands. -/
def Instr.wellFormed : Instr → Bool
  | .cmdReserved cmd _ => reservedCommand cmd
  | .rdMisalignedOdd off _ => misalignedOddOffset off
  | .rdMisalignedEven off _ => misalignedEvenOffset off
  | .wrMisalignedOdd off _ => misalignedOddOffset off
  | .wrMisalignedEven off _ => misalignedEvenOffset off
  | .rdReserved off _ => reservedOffset off
  | .wrReserved off _ => reservedOffset off
  | .rdId _ | .wrId _ | .rdVersion _ | .wrVersion _ | .rdCtrl _ | .cmdNop _ | .cmdCrcStart _ | .cmdFrameStart _
  | .cmdChunkStart _ | .cmdStreamStart _ | .cmdEnd _ | .cmdAbort _ | .cmdClrIgn _ | .rdStatus _ | .wrStatus _
  | .rdCrcState _ | .wrCrcState _ | .rdCrcValue _ | .wrCrcValue _ | .rdDin8 _ | .wrDin8 _ _ | .rdDin32 _
  | .wrDin32 _ _ _ _ | .rdTag _ | .wrTag _ | .rdLen _ | .wrLen _ | .rdRxcrc _ | .wrRxcrc _ | .rdRem _ | .wrRem _
  | .rdPos _ | .wrPos _ | .rdChunks _ | .wrChunks _ | .rdCstart _ | .wrCstart _ | .rdTagchk _ | .wrTagchk _
  | .rdTagres _ | .wrTagres _ => true

end Sys2Proof
end

