-- ==== Sys2Proof/Decode.lean ====
section
/-! DEFINITION. Decoding a transaction word, and encoding an instruction (30_encoding.md R70 to R76). The decode of a
41-bit word is total (R75); the only input refused, by name, is one that is no 41-bit word. -/

namespace Sys2Proof

/-! ### The register map -/

/-- The offset of a register (10_state.md R23). -/
def regOffset : Reg → Offset
  | .id => 0x00#8
  | .version => 0x04#8
  | .ctrl => 0x08#8
  | .status => 0x0C#8
  | .crcState => 0x10#8
  | .crcValue => 0x14#8
  | .din8 => 0x18#8
  | .din32 => 0x1C#8
  | .tag => 0x20#8
  | .len => 0x24#8
  | .rxcrc => 0x28#8
  | .rem => 0x2C#8
  | .pos => 0x30#8
  | .chunks => 0x34#8
  | .cstart => 0x38#8
  | .tagchk => 0x3C#8
  | .tagres => 0x40#8

/-- The named registers, in the order of their offsets (R23). -/
def allRegs : List Reg :=
  [.id, .version, .ctrl, .status, .crcState, .crcValue, .din8, .din32, .tag, .len, .rxcrc, .rem, .pos, .chunks,
    .cstart, .tagchk, .tagres]

/-- What an offset of the window selects: a register, a misaligned place (in the two classes of the opcode table's
rows), or a reserved slot (R23, R43, R54). -/
inductive Slot where
  | reg (r : Reg)
  | misalignedOdd
  | misalignedEven
  | reserved
  deriving DecidableEq, Repr

/-- The slot an offset selects. Alignment is judged first: no register has a misaligned offset (R75). -/
def slotOf (off : Offset) : Slot :=
  if misalignedOddOffset off then .misalignedOdd
  else if misalignedEvenOffset off then .misalignedEven
  else match allRegs.find? (fun r => regOffset r == off) with
    | some r => .reg r
    | none => .reserved

/-! ### The fields of a transaction word -/

/-- The transaction word of W, OFF and WDATA: `W<<40 | OFF<<32 | WDATA` (R70). -/
def word (w : BitVec 1) (off : Offset) (wdata : Word) : Txn := w ++ off ++ wdata

/-- W, bit 40: 1 for a write (R70). -/
def Txn.w (t : Txn) : BitVec 1 := t.extractLsb' 40 1

/-- OFF, bits 39:32 (R70). -/
def Txn.off (t : Txn) : Offset := t.extractLsb' 32 8

/-- WDATA, bits 31:0 (R70). -/
def Txn.wdata (t : Txn) : Word := t.extractLsb' 0 32

/-! ### Decode -/

/-- The command of a CTRL write: CMD = WDATA[3:0], WDATA[31:4] ignored (R71, R72). -/
def decodeCommand (cmd : BitVec 4) (ignored : BitVec 28) : Instr :=
  if cmd = 0x0#4 then .cmdNop ignored
  else if cmd = 0x1#4 then .cmdCrcStart ignored
  else if cmd = 0x2#4 then .cmdFrameStart ignored
  else if cmd = 0x3#4 then .cmdChunkStart ignored
  else if cmd = 0x4#4 then .cmdStreamStart ignored
  else if cmd = 0x5#4 then .cmdEnd ignored
  else if cmd = 0x6#4 then .cmdAbort ignored
  else if cmd = 0x7#4 then .cmdClrIgn ignored
  else .cmdReserved cmd ignored

/-- A read of a slot (R71, format READ). -/
def decodeRead (slot : Slot) (off : Offset) (wdata : Word) : Instr :=
  match slot with
  | .reg .id => .rdId wdata
  | .reg .version => .rdVersion wdata
  | .reg .ctrl => .rdCtrl wdata
  | .reg .status => .rdStatus wdata
  | .reg .crcState => .rdCrcState wdata
  | .reg .crcValue => .rdCrcValue wdata
  | .reg .din8 => .rdDin8 wdata
  | .reg .din32 => .rdDin32 wdata
  | .reg .tag => .rdTag wdata
  | .reg .len => .rdLen wdata
  | .reg .rxcrc => .rdRxcrc wdata
  | .reg .rem => .rdRem wdata
  | .reg .pos => .rdPos wdata
  | .reg .chunks => .rdChunks wdata
  | .reg .cstart => .rdCstart wdata
  | .reg .tagchk => .rdTagchk wdata
  | .reg .tagres => .rdTagres wdata
  | .misalignedOdd => .rdMisalignedOdd off wdata
  | .misalignedEven => .rdMisalignedEven off wdata
  | .reserved => .rdReserved off wdata

/-- A write to a slot (R71, formats WRITE, CMD, DATA8 and DATA32; R73). -/
def decodeWrite (slot : Slot) (off : Offset) (wdata : Word) : Instr :=
  match slot with
  | .reg .id => .wrId wdata
  | .reg .version => .wrVersion wdata
  | .reg .ctrl => decodeCommand (wdata.extractLsb' 0 4) (wdata.extractLsb' 4 28)
  | .reg .status => .wrStatus wdata
  | .reg .crcState => .wrCrcState wdata
  | .reg .crcValue => .wrCrcValue wdata
  | .reg .din8 => .wrDin8 (wdata.extractLsb' 0 8) (wdata.extractLsb' 8 24)
  | .reg .din32 => .wrDin32 (wdata.extractLsb' 24 8) (wdata.extractLsb' 16 8) (wdata.extractLsb' 8 8) (wdata.extractLsb' 0 8)
  | .reg .tag => .wrTag wdata
  | .reg .len => .wrLen wdata
  | .reg .rxcrc => .wrRxcrc wdata
  | .reg .rem => .wrRem wdata
  | .reg .pos => .wrPos wdata
  | .reg .chunks => .wrChunks wdata
  | .reg .cstart => .wrCstart wdata
  | .reg .tagchk => .wrTagchk wdata
  | .reg .tagres => .wrTagres wdata
  | .misalignedOdd => .wrMisalignedOdd off wdata
  | .misalignedEven => .wrMisalignedEven off wdata
  | .reserved => .wrReserved off wdata

/-- The instruction of a transaction word: decoding is done on W, OFF and, for CMD, WDATA[3:0] (R74, R75). -/
def decode (t : Txn) : Instr :=
  if Txn.w t = 1#1 then decodeWrite (slotOf (Txn.off t)) (Txn.off t) (Txn.wdata t)
  else decodeRead (slotOf (Txn.off t)) (Txn.off t) (Txn.wdata t)

/-- Why a number of bits is no transaction word. -/
inductive DecodeError where
  /-- A bit above bit 40 is set: the transaction word has 41 bits and no other length (R70, R78). -/
  | bitAboveForty
  deriving DecidableEq, Repr

/-- The transaction word in the low `nbits` bits of `w`, numbered as the opcode table numbers them. -/
def txnOfBits (nbits w : Nat) : Except DecodeError Txn :=
  if w % 2 ^ nbits < 2 ^ 41 then .ok (BitVec.ofNat 41 (w % 2 ^ nbits)) else .error .bitAboveForty

/-- The instruction the decoder reads from a row's bits. -/
def decodeTableWord (nbits w : Nat) : Option Instr :=
  match txnOfBits nbits w with
  | .ok t => some (decode t)
  | .error _ => none

/-! ### Encode -/

/-- The transaction word of an instruction (R70 to R74). -/
def encode : Instr → Txn
  | .rdId ignored => word 0#1 (regOffset .id) ignored
  | .wrId value => word 1#1 (regOffset .id) value
  | .rdVersion ignored => word 0#1 (regOffset .version) ignored
  | .wrVersion value => word 1#1 (regOffset .version) value
  | .rdCtrl ignored => word 0#1 (regOffset .ctrl) ignored
  | .cmdNop ignored => word 1#1 (regOffset .ctrl) (ignored ++ 0x0#4)
  | .cmdCrcStart ignored => word 1#1 (regOffset .ctrl) (ignored ++ 0x1#4)
  | .cmdFrameStart ignored => word 1#1 (regOffset .ctrl) (ignored ++ 0x2#4)
  | .cmdChunkStart ignored => word 1#1 (regOffset .ctrl) (ignored ++ 0x3#4)
  | .cmdStreamStart ignored => word 1#1 (regOffset .ctrl) (ignored ++ 0x4#4)
  | .cmdEnd ignored => word 1#1 (regOffset .ctrl) (ignored ++ 0x5#4)
  | .cmdAbort ignored => word 1#1 (regOffset .ctrl) (ignored ++ 0x6#4)
  | .cmdClrIgn ignored => word 1#1 (regOffset .ctrl) (ignored ++ 0x7#4)
  | .cmdReserved cmd ignored => word 1#1 (regOffset .ctrl) (ignored ++ cmd)
  | .rdStatus ignored => word 0#1 (regOffset .status) ignored
  | .wrStatus value => word 1#1 (regOffset .status) value
  | .rdCrcState ignored => word 0#1 (regOffset .crcState) ignored
  | .wrCrcState value => word 1#1 (regOffset .crcState) value
  | .rdCrcValue ignored => word 0#1 (regOffset .crcValue) ignored
  | .wrCrcValue value => word 1#1 (regOffset .crcValue) value
  | .rdDin8 ignored => word 0#1 (regOffset .din8) ignored
  | .wrDin8 byte ignored => word 1#1 (regOffset .din8) (ignored ++ byte)
  | .rdDin32 ignored => word 0#1 (regOffset .din32) ignored
  | .wrDin32 byte0 byte1 byte2 byte3 => word 1#1 (regOffset .din32) (byte0 ++ byte1 ++ byte2 ++ byte3)
  | .rdTag ignored => word 0#1 (regOffset .tag) ignored
  | .wrTag value => word 1#1 (regOffset .tag) value
  | .rdLen ignored => word 0#1 (regOffset .len) ignored
  | .wrLen value => word 1#1 (regOffset .len) value
  | .rdRxcrc ignored => word 0#1 (regOffset .rxcrc) ignored
  | .wrRxcrc value => word 1#1 (regOffset .rxcrc) value
  | .rdRem ignored => word 0#1 (regOffset .rem) ignored
  | .wrRem value => word 1#1 (regOffset .rem) value
  | .rdPos ignored => word 0#1 (regOffset .pos) ignored
  | .wrPos value => word 1#1 (regOffset .pos) value
  | .rdChunks ignored => word 0#1 (regOffset .chunks) ignored
  | .wrChunks value => word 1#1 (regOffset .chunks) value
  | .rdCstart ignored => word 0#1 (regOffset .cstart) ignored
  | .wrCstart value => word 1#1 (regOffset .cstart) value
  | .rdTagchk ignored => word 0#1 (regOffset .tagchk) ignored
  | .wrTagchk value => word 1#1 (regOffset .tagchk) value
  | .rdTagres ignored => word 0#1 (regOffset .tagres) ignored
  | .wrTagres value => word 1#1 (regOffset .tagres) value
  | .rdMisalignedOdd off ignored => word 0#1 off ignored
  | .rdMisalignedEven off ignored => word 0#1 off ignored
  | .wrMisalignedOdd off ignored => word 1#1 off ignored
  | .wrMisalignedEven off ignored => word 1#1 off ignored
  | .rdReserved off ignored => word 0#1 off ignored
  | .wrReserved off ignored => word 1#1 off ignored

/-! ### The opcode table, row by row -/

/-- A row of R74's table: the row applies to T iff `T and mask == match`. -/
structure Row where
  mnemonic : String
  pattern : Txn
  mask : Txn
  deriving DecidableEq, Repr

/-- Rows 1 to 12 of R74's table, the fallback rows set aside. -/
def tableRows1 : List Row := [
  ⟨"RD_ID", 0x00000000000#41, 0x1FF00000000#41⟩,
  ⟨"WR_ID", 0x10000000000#41, 0x1FF00000000#41⟩,
  ⟨"RD_VERSION", 0x00400000000#41, 0x1FF00000000#41⟩,
  ⟨"WR_VERSION", 0x10400000000#41, 0x1FF00000000#41⟩,
  ⟨"RD_CTRL", 0x00800000000#41, 0x1FF00000000#41⟩,
  ⟨"CMD_NOP", 0x10800000000#41, 0x1FF0000000F#41⟩,
  ⟨"CMD_CRC_START", 0x10800000001#41, 0x1FF0000000F#41⟩,
  ⟨"CMD_FRAME_START", 0x10800000002#41, 0x1FF0000000F#41⟩,
  ⟨"CMD_CHUNK_START", 0x10800000003#41, 0x1FF0000000F#41⟩,
  ⟨"CMD_STREAM_START", 0x10800000004#41, 0x1FF0000000F#41⟩,
  ⟨"CMD_END", 0x10800000005#41, 0x1FF0000000F#41⟩,
  ⟨"CMD_ABORT", 0x10800000006#41, 0x1FF0000000F#41⟩]

/-- Rows 13 to 24 of R74's table, the fallback rows set aside. -/
def tableRows2 : List Row := [
  ⟨"CMD_CLR_IGN", 0x10800000007#41, 0x1FF0000000F#41⟩,
  ⟨"CMD_RESERVED", 0x10800000008#41, 0x1FF00000008#41⟩,
  ⟨"RD_STATUS", 0x00C00000000#41, 0x1FF00000000#41⟩,
  ⟨"WR_STATUS", 0x10C00000000#41, 0x1FF00000000#41⟩,
  ⟨"RD_CRC_STATE", 0x01000000000#41, 0x1FF00000000#41⟩,
  ⟨"WR_CRC_STATE", 0x11000000000#41, 0x1FF00000000#41⟩,
  ⟨"RD_CRC_VALUE", 0x01400000000#41, 0x1FF00000000#41⟩,
  ⟨"WR_CRC_VALUE", 0x11400000000#41, 0x1FF00000000#41⟩,
  ⟨"RD_DIN8", 0x01800000000#41, 0x1FF00000000#41⟩,
  ⟨"WR_DIN8", 0x11800000000#41, 0x1FF00000000#41⟩,
  ⟨"RD_DIN32", 0x01C00000000#41, 0x1FF00000000#41⟩,
  ⟨"WR_DIN32", 0x11C00000000#41, 0x1FF00000000#41⟩]

/-- Rows 25 to 36 of R74's table, the fallback rows set aside. -/
def tableRows3 : List Row := [
  ⟨"RD_TAG", 0x02000000000#41, 0x1FF00000000#41⟩,
  ⟨"WR_TAG", 0x12000000000#41, 0x1FF00000000#41⟩,
  ⟨"RD_LEN", 0x02400000000#41, 0x1FF00000000#41⟩,
  ⟨"WR_LEN", 0x12400000000#41, 0x1FF00000000#41⟩,
  ⟨"RD_RXCRC", 0x02800000000#41, 0x1FF00000000#41⟩,
  ⟨"WR_RXCRC", 0x12800000000#41, 0x1FF00000000#41⟩,
  ⟨"RD_REM", 0x02C00000000#41, 0x1FF00000000#41⟩,
  ⟨"WR_REM", 0x12C00000000#41, 0x1FF00000000#41⟩,
  ⟨"RD_POS", 0x03000000000#41, 0x1FF00000000#41⟩,
  ⟨"WR_POS", 0x13000000000#41, 0x1FF00000000#41⟩,
  ⟨"RD_CHUNKS", 0x03400000000#41, 0x1FF00000000#41⟩,
  ⟨"WR_CHUNKS", 0x13400000000#41, 0x1FF00000000#41⟩]

/-- Rows 37 to 46 of R74's table, the fallback rows set aside. -/
def tableRows4 : List Row := [
  ⟨"RD_CSTART", 0x03800000000#41, 0x1FF00000000#41⟩,
  ⟨"WR_CSTART", 0x13800000000#41, 0x1FF00000000#41⟩,
  ⟨"RD_TAGCHK", 0x03C00000000#41, 0x1FF00000000#41⟩,
  ⟨"WR_TAGCHK", 0x13C00000000#41, 0x1FF00000000#41⟩,
  ⟨"RD_TAGRES", 0x04000000000#41, 0x1FF00000000#41⟩,
  ⟨"WR_TAGRES", 0x14000000000#41, 0x1FF00000000#41⟩,
  ⟨"RD_MISALIGNED", 0x00100000000#41, 0x10100000000#41⟩,
  ⟨"RD_MISALIGNED", 0x00200000000#41, 0x10300000000#41⟩,
  ⟨"WR_MISALIGNED", 0x10100000000#41, 0x10100000000#41⟩,
  ⟨"WR_MISALIGNED", 0x10200000000#41, 0x10300000000#41⟩]

/-- The rows of R74's table but the two fallback rows. -/
def tableRows : List Row := tableRows1 ++ tableRows2 ++ tableRows3 ++ tableRows4

/-- The two fallback rows, which apply only where no other row does (R75). -/
def fallbackRows : List Row :=
  [⟨"RD_RESERVED", 0x00000000000#41, 0x10000000000#41⟩, ⟨"WR_RESERVED", 0x10000000000#41, 0x10000000000#41⟩]

/-- Whether a row applies to a word (R74). -/
def Row.applies (r : Row) (t : Txn) : Bool := t &&& r.mask == r.pattern

/-- The mnemonics R75's procedure finds for a word: those of the rows that apply, the fallback rows set aside; only
if none applies, that of the fallback row, by its W bit. -/
def tableMnemonics (t : Txn) : List String :=
  match tableRows.filter (fun r => r.applies t) with
  | [] => (fallbackRows.filter (fun r => r.applies t)).map Row.mnemonic
  | rs => rs.map Row.mnemonic

/-- The mnemonic of an instruction, as spec/opcode_table.json spells it. -/
def Instr.mnemonic : Instr → String
  | .rdId _ => "RD_ID"
  | .wrId _ => "WR_ID"
  | .rdVersion _ => "RD_VERSION"
  | .wrVersion _ => "WR_VERSION"
  | .rdCtrl _ => "RD_CTRL"
  | .cmdNop _ => "CMD_NOP"
  | .cmdCrcStart _ => "CMD_CRC_START"
  | .cmdFrameStart _ => "CMD_FRAME_START"
  | .cmdChunkStart _ => "CMD_CHUNK_START"
  | .cmdStreamStart _ => "CMD_STREAM_START"
  | .cmdEnd _ => "CMD_END"
  | .cmdAbort _ => "CMD_ABORT"
  | .cmdClrIgn _ => "CMD_CLR_IGN"
  | .cmdReserved _ _ => "CMD_RESERVED"
  | .rdStatus _ => "RD_STATUS"
  | .wrStatus _ => "WR_STATUS"
  | .rdCrcState _ => "RD_CRC_STATE"
  | .wrCrcState _ => "WR_CRC_STATE"
  | .rdCrcValue _ => "RD_CRC_VALUE"
  | .wrCrcValue _ => "WR_CRC_VALUE"
  | .rdDin8 _ => "RD_DIN8"
  | .wrDin8 _ _ => "WR_DIN8"
  | .rdDin32 _ => "RD_DIN32"
  | .wrDin32 _ _ _ _ => "WR_DIN32"
  | .rdTag _ => "RD_TAG"
  | .wrTag _ => "WR_TAG"
  | .rdLen _ => "RD_LEN"
  | .wrLen _ => "WR_LEN"
  | .rdRxcrc _ => "RD_RXCRC"
  | .wrRxcrc _ => "WR_RXCRC"
  | .rdRem _ => "RD_REM"
  | .wrRem _ => "WR_REM"
  | .rdPos _ => "RD_POS"
  | .wrPos _ => "WR_POS"
  | .rdChunks _ => "RD_CHUNKS"
  | .wrChunks _ => "WR_CHUNKS"
  | .rdCstart _ => "RD_CSTART"
  | .wrCstart _ => "WR_CSTART"
  | .rdTagchk _ => "RD_TAGCHK"
  | .wrTagchk _ => "WR_TAGCHK"
  | .rdTagres _ => "RD_TAGRES"
  | .wrTagres _ => "WR_TAGRES"
  | .rdMisalignedOdd _ _ => "RD_MISALIGNED"
  | .rdMisalignedEven _ _ => "RD_MISALIGNED"
  | .wrMisalignedOdd _ _ => "WR_MISALIGNED"
  | .wrMisalignedEven _ _ => "WR_MISALIGNED"
  | .rdReserved _ _ => "RD_RESERVED"
  | .wrReserved _ _ => "WR_RESERVED"

end Sys2Proof
end

