-- ==== Sys2Proof/Machine/State.lean ====
section
/-! DEFINITION. The state of the machine: the block's whole state (10_state.md R20) and, around it, the bus from which
the block takes its transactions and the values its reads have returned. The fault and refusal reasons. -/

namespace Sys2Proof.Machine

/-- MODE (10_state.md R24); the code 7 is never held. -/
inductive Mode where
  | idle | crc | frame | chunk | stream | done | error
  deriving DecidableEq, Repr

/-- PHASE (R24); the code 7 is never held. -/
inductive Phase where
  | none | sig | len | tag | data | crc | bound
  deriving DecidableEq, Repr

/-- The error kinds, in the one code space of block and host (60_exceptions.md R300, R308; 00_scope.md R18). -/
inductive ErrKind where
  | invalidTagLength
  | invalidTagBytes
  | unexpectedEof
  | checksumMismatch
  | badSignature
  | trailingBytes
  | chunkNotFound
  | invalidUtf8
  | lengthOverflow
  deriving DecidableEq, Repr

/-- What the platform, not the host program, does on the bus. -/
inductive PlatformEvent where
  /-- A bus cycle in which no transaction completes: a wait state or an idle bus (R340, I8). -/
  | waitState
  /-- The reset input is asserted, between two transactions (R330). -/
  | reset
  /-- The bus stalls for ever: no transaction completes any more (I9). -/
  | stall
  /-- A byte, halfword or split access (R55, I6). -/
  | narrowAccess
  /-- A transaction of a second bus master (R281, I10). -/
  | secondMaster
  /-- An access that the interconnect reorders, merges, repeats or drops (R62, R281, I11). -/
  | disorderedAccess
  deriving DecidableEq, Repr

/-- What the bus delivers next. -/
inductive BusEvent where
  | transaction (t : Txn)
  | platform (e : PlatformEvent)
  deriving DecidableEq, Repr

/-- The machine. The sixteen fields from `mode` to `tagchk` are the block's whole state (R20); the last three are the
model's own and are not block state (log entries 2, 3 and 4). -/
structure State where
  /-- STATUS.MODE (R24). -/
  mode : Mode
  /-- STATUS.ERR (R24, R300); `none` is the code 0. -/
  err : Option ErrKind
  /-- STATUS.IGN, sticky (R24, R26). -/
  ign : Bool
  /-- STATUS.HDRV (R24, R26). -/
  hdrv : Bool
  /-- STATUS.SIGMATCH (R24, R26). -/
  sigmatch : Bool
  /-- STATUS.PHASE (R24). -/
  phase : Phase
  /-- STATUS.FCNT (R24). -/
  fcnt : BitVec 3
  /-- CRC_STATE, before the final xor (R30). -/
  crcState : Word
  /-- TAG (R34). -/
  tag : Word
  /-- LEN (R35). -/
  len : Word
  /-- RXCRC (R36). -/
  rxcrc : Word
  /-- REM (R37). -/
  rem : Word
  /-- POS (R38). -/
  pos : Word
  /-- CHUNKS (R39). -/
  chunks : Word
  /-- CSTART (R40). -/
  cstart : Word
  /-- TAGCHK (R41). -/
  tagchk : Word
  /-- What the bus still delivers, the next first: the host's program and the platform's events (R21, R61, R283). -/
  bus : List BusEvent
  /-- The RDATA values the reads have returned, the oldest first (R15, R100, R283). -/
  rdata : List Word
  /-- The ghost mark of R283: set together with IGN and never cleared. -/
  ignSeen : Bool
  deriving DecidableEq, Repr

/-- The machine right after reset (R46), with nothing posted on the bus and nothing read. -/
def State.reset : State where
  mode := .idle
  err := none
  ign := false
  hdrv := false
  sigmatch := true
  phase := .none
  fcnt := 0#3
  crcState := 0xFFFFFFFF#32
  tag := 0x00000000#32
  len := 0#32
  rxcrc := 0#32
  rem := 0#32
  pos := 0#32
  chunks := 0#32
  cstart := 0#32
  tagchk := 0x00000000#32
  bus := []
  rdata := []
  ignSeen := false

/-- Why a run stops for good. No transaction of the block raises one (R100). -/
inductive Fault where
  /-- Raised by a stall of the bus: I9's 'stuck' (93_implementation_defined.md). Safe: the model stops where the
  platform hangs. -/
  | busStalled
  deriving DecidableEq, Repr

/-- Why the model gives an event no meaning. -/
inductive Refusal where
  /-- Raised by an arm of `exec` for an instruction without a meaning yet; no arm of this model. Safe. -/
  | notModelled (mnemonic : String)
  /-- Raised by a byte, halfword or split access: R55 asks a model to refuse it (I6). Safe. -/
  | narrowAccess
  /-- Raised by a transaction of a second bus master (R281, I10, premise SingleMaster). Safe. -/
  | secondMaster
  /-- Raised by an access reordered, merged, repeated or dropped on the way (R281, I11, premise DeviceOrdered). Safe. -/
  | disorderedAccess
  deriving DecidableEq, Repr

end Sys2Proof.Machine
end

