-- ==== Sys2Proof/Machine/Operands.lean ====
section
/-! DEFINITION. Wire bytes and words: the big-endian byte order of 20_memory.md R51 and R52. -/

namespace Sys2Proof.Machine

/-- The word of four bytes in wire order, the first in bits 31:24 (R52). -/
def ofWire (b0 b1 b2 b3 : Byte) : Word := b0 ++ b1 ++ b2 ++ b3

/-- Wire byte i (0 to 3) of a word: bits [31-8i : 24-8i] (R52). -/
def wireByte (v : Word) (i : Nat) : Byte := v.extractLsb' (24 - 8 * i) 8

/-- The four-byte big-endian encoding of a word (R51). -/
def be32 (v : Word) : List Byte := [wireByte v 0, wireByte v 1, wireByte v 2, wireByte v 3]

/-- Shifting a byte into a field from the right: `(v << 8 | b) mod 2^32` (44_deframer.md R203). -/
def shiftIn (v : Word) (b : Byte) : Word := (v <<< 8) ||| b.setWidth 32

/-- The PNG signature `89 50 4E 47 0D 0A 1A 0A` (44_deframer.md R211). -/
def signature : List Byte := [0x89#8, 0x50#8, 0x4E#8, 0x47#8, 0x0D#8, 0x0A#8, 0x1A#8, 0x0A#8]

/-- Byte i of the signature, `SIG[i]` (R203). -/
def signatureByte (i : BitVec 3) : Byte := signature.getD i.toNat 0#8

end Sys2Proof.Machine
end

