-- ==== Sys2Proof/Machine/Flags.lean ====
section
/-! DEFINITION. The computed bits: the tag grammar, the words STATUS and TAGRES, and the codes of their fields
(10_state.md R24, R25, R42; 41_tag.md R130 to R134; 60_exceptions.md R300). -/

namespace Sys2Proof.Machine

/-- The code of a mode in STATUS[2:0] (R24). -/
def modeCode : Mode → BitVec 3
  | .idle => 0#3
  | .crc => 1#3
  | .frame => 2#3
  | .chunk => 3#3
  | .stream => 4#3
  | .done => 5#3
  | .error => 6#3

/-- The code of a phase in STATUS[14:12] (R24). -/
def phaseCode : Phase → BitVec 3
  | .none => 0#3
  | .sig => 1#3
  | .len => 2#3
  | .tag => 3#3
  | .data => 4#3
  | .crc => 5#3
  | .bound => 6#3

/-- The code of an error kind (R300). -/
def errKindCode : ErrKind → BitVec 4
  | .invalidTagLength => 1#4
  | .invalidTagBytes => 2#4
  | .unexpectedEof => 3#4
  | .checksumMismatch => 4#4
  | .badSignature => 5#4
  | .trailingBytes => 6#4
  | .chunkNotFound => 7#4
  | .invalidUtf8 => 8#4
  | .lengthOverflow => 9#4

/-- STATUS.ERR: 0 is no error (R24, R300). -/
def errCode : Option ErrKind → BitVec 4
  | none => 0#4
  | some k => errKindCode k

/-- An ASCII letter: 0x41 to 0x5A or 0x61 to 0x7A (R130). -/
def isLetter (b : Byte) : Bool :=
  (decide (0x41#8 ≤ b) && decide (b ≤ 0x5A#8)) || (decide (0x61#8 ≤ b) && decide (b ≤ 0x7A#8))

/-- A valid tag: all four wire bytes are letters (R131). -/
def validTag (t : Word) : Bool :=
  isLetter (wireByte t 0) && isLetter (wireByte t 1) && isLetter (wireByte t 2) && isLetter (wireByte t 3)

/-- The "is critical" bit, t[29] = 0 (R132). -/
def critical (t : Word) : Bool := !t.getLsbD 29

/-- One bit as a word, at place i. -/
def bitAt (b : Bool) (i : Nat) : Word := (BitVec.ofBool b).setWidth 32 <<< i

/-- What a read of STATUS returns (R25, 40_control.md R106). -/
def statusWord (s : State) : Word :=
  (modeCode s.mode).setWidth 32 ||| (errCode s.err).setWidth 32 <<< 4 ||| bitAt s.ign 8 ||| bitAt s.hdrv 9
    ||| bitAt (critical s.tag) 10 ||| bitAt s.sigmatch 11 ||| (phaseCode s.phase).setWidth 32 <<< 12
    ||| s.fcnt.setWidth 32 <<< 16

/-- What a read of TAGRES returns, from TAGCHK (R42, R134). -/
def tagresWord (t : Word) : Word :=
  bitAt (validTag t) 0 ||| bitAt (critical t) 1 ||| bitAt (isLetter (wireByte t 0)) 2
    ||| bitAt (isLetter (wireByte t 1)) 3 ||| bitAt (isLetter (wireByte t 2)) 4 ||| bitAt (isLetter (wireByte t 3)) 5

/-- IDLE, DONE and ERROR: the modes in which a start command is accepted (R101). -/
def startable : Mode → Bool
  | .idle | .done | .error => true
  | .crc | .frame | .chunk | .stream => false

/-- The modes in which a host write to CRC_STATE or TAG is accepted: IDLE, CRC, DONE and ERROR (R101). -/
def hostWritable : Mode → Bool
  | .idle | .crc | .done | .error => true
  | .frame | .chunk | .stream => false

end Sys2Proof.Machine
end

