-- ==== Sys2Proof/Machine/Ops.lean ====
section
/-! DEFINITION. The operations every family shares: an ignored access, an error, the answer of a read, the acceptance
of a command or a write, reset. -/

namespace Sys2Proof.Machine

/-- SetIGN: an ignored access changes nothing but IGN (40_control.md R102); the ghost mark is set with it (R283). -/
def setIgn (s : State) : State := { s with ign := true, ignSeen := true }

/-- Fail(code): the one way an error is raised. It sets MODE and ERR and nothing else (60_exceptions.md R305). The block
has no trap: this is all that 'taking an exception' is on this hardware (R310). -/
def fail (k : ErrKind) (s : State) : State := { s with mode := .error, err := some k }

/-- A read answers RDATA and changes no block state (20_memory.md R57, 40_control.md R100). -/
def respond (v : Word) (s : State) : Host.Outcome State Fault Refusal := .next { s with rdata := s.rdata ++ [v] }

/-- A start command runs in a startable mode and is an ignored access in the others (R101, R112). -/
def whenStartable (f : State → State) (s : State) : State := if startable s.mode then f s else setIgn s

/-- A host write to CRC_STATE or TAG is accepted in IDLE, CRC, DONE and ERROR, else an ignored access (R101). -/
def whenHostWritable (f : State → State) (s : State) : State := if hostWritable s.mode then f s else setIgn s

/-- A platform reset: every element of the block's state takes its reset value (R330, R46). The bus, the values read and
the ghost mark are not block state and stay. -/
def resetBlock (s : State) : State := { State.reset with bus := s.bus, rdata := s.rdata, ignSeen := s.ignSeen }

end Sys2Proof.Machine
end

