-- ==== Sys2Proof/Machine/Bus.lean ====
section
/-! DEFINITION. The bus side of the block: what the platform's events do, how a transaction is posted, and where the
window lies in the platform's address space. -/

namespace Sys2Proof.Machine

/-- With nothing on the bus the block takes no step of its own and holds its state (00_scope.md R14, 60_exceptions.md
R325). -/
def busIdle (s : State) : Host.Outcome State Fault Refusal := .next s

/-- What a platform event does, the event already taken off the bus: a wait state is not observable (R340, I8); reset
sets the block's state (R330); a stalled bus is stuck (I9); a narrow access, a second master and a disordered access have
no meaning (R55, R281, I6, I10, I11). -/
def platformEvent (e : PlatformEvent) (s : State) : Host.Outcome State Fault Refusal :=
  match e with
  | .waitState => .next s
  | .reset => .next (resetBlock s)
  | .stall => .fault .busStalled
  | .narrowAccess => .refused .narrowAccess
  | .secondMaster => .refused .secondMaster
  | .disorderedAccess => .refused .disorderedAccess

/-- The transaction comes next on the bus. -/
def post (t : Txn) (s : State) : State := { s with bus := .transaction t :: s.bus }

/-- The transaction in a row's bits comes next on the bus; bits that are no transaction word post nothing. -/
def postBits (nbits w : Nat) (s : State) : State :=
  match txnOfBits nbits w with
  | .ok t => post t s
  | .error _ => s

/-- The platform address of an offset: BASE + OFF (30_encoding.md R70, 20_memory.md R50). -/
def platformAddress (off : Offset) : Nat := Config.base + off.toNat

/-- The offset a platform address selects: its place in the window of 256 bytes from BASE on (R50), else what the platform
decodes there, an alias of the window or nothing (R59; log entry 5). -/
def offsetOfAddress (a : Nat) : Option Offset :=
  if Config.base ≤ a ∧ a < Config.base + 256 then some (BitVec.ofNat 8 (a - Config.base))
  else Config.aliasOffset a

end Sys2Proof.Machine
end

