-- ==== Sys2Proof/Machine/Crc.lean ====
section
/-! DEFINITION. The CRC-32 engine and the raw CRC mode (42_crc.md). -/

namespace Sys2Proof.Machine

/-- POLY, the reflected polynomial (R151). -/
def crcPoly : Word := 0xEDB88320#32

/-- CRC_INIT, the seed (R152). -/
def crcInit : Word := 0xFFFFFFFF#32

/-- CRC_XOROUT, the final xor (R153). -/
def crcXorOut : Word := 0xFFFFFFFF#32

/-- One of the eight shifts of R154. -/
def crcShift (s : Word) : Word := if s.getLsbD 0 then (s >>> 1) ^^^ crcPoly else s >>> 1

/-- `n` shifts of R154. -/
def crcShifts : Nat → Word → Word
  | 0, s => s
  | n + 1, s => crcShifts n (crcShift s)

/-- crc_byte(s, b) (R154). -/
def crcByte (s : Word) (b : Byte) : Word := crcShifts 8 (s ^^^ b.setWidth 32)

/-- crc_update(s, m) (R154). -/
def crcUpdate (s : Word) (m : List Byte) : Word := m.foldl crcByte s

/-- The finished value of a register (R153). -/
def crcFinish (s : Word) : Word := s ^^^ crcXorOut

/-- crc32(m) (R155). -/
def crc32 (m : List Byte) : Word := crcFinish (crcUpdate crcInit m)

/-- CrcPush(b), the Push action of CRC mode (R157). -/
def crcPush (b : Byte) (s : State) : State := { s with crcState := crcByte s.crcState b, pos := s.pos + 1#32 }

/-- CrcEnd, the END action of CRC mode (R162). -/
def crcEnd (s : State) : State := { s with mode := .done }

/-- The effect of an accepted CRC_START (R161). -/
def crcStart (s : State) : State :=
  { s with crcState := crcInit, pos := 0#32, err := none, phase := .none, fcnt := 0#3, hdrv := false, mode := .crc }

/-- CMD_CRC_START (R161). -/
def execCmdCrcStart (_ignored : BitVec 28) (s : State) : Host.Outcome State Fault Refusal :=
  .next (whenStartable crcStart s)

/-- WR_CRC_STATE (R158). -/
def execWrCrcState (value : Word) (s : State) : Host.Outcome State Fault Refusal :=
  .next (whenHostWritable (fun s => { s with crcState := value }) s)

/-- RD_CRC_STATE (R159). -/
def execRdCrcState (_ignored : Word) (s : State) : Host.Outcome State Fault Refusal := respond s.crcState s

/-- RD_CRC_VALUE (R160). -/
def execRdCrcValue (_ignored : Word) (s : State) : Host.Outcome State Fault Refusal := respond (crcFinish s.crcState) s

end Sys2Proof.Machine
end

