-- ==== Sys2Proof/Machine/Deframer.lean ====
section
/-! DEFINITION. The deframer (44_deframer.md): CHUNK and STREAM mode. -/

namespace Sys2Proof.Machine

/-- What CHUNK_START and STREAM_START clear and seed alike (R201, R202). -/
def deframeClear (s : State) : State :=
  { s with
    err := none, fcnt := 0#3, hdrv := false, len := 0#32, tag := 0#32, rxcrc := 0#32, rem := 0#32, pos := 0#32,
    chunks := 0#32, cstart := 0#32, crcState := crcInit }

/-- The effect of an accepted CHUNK_START (R201). -/
def chunkStart (s : State) : State := { deframeClear s with phase := .len, mode := .chunk }

/-- The effect of an accepted STREAM_START (R202). -/
def streamStart (s : State) : State := { deframeClear s with sigmatch := true, phase := .sig, mode := .stream }

/-- The SIG phase (R203, R211): a mismatch is recorded, the verdict comes at the eighth byte. -/
def sigPush (b : Byte) (s : State) : State :=
  let s := if b = signatureByte s.fcnt then s else { s with sigmatch := false }
  if s.fcnt < 7#3 then { s with fcnt := s.fcnt + 1#3 }
  else if s.sigmatch then { s with fcnt := 0#3, phase := .bound }
  else fail .badSignature { s with fcnt := 0#3 }

/-- A chunk starts with the byte at offset `off` (R203, R213). -/
def chunkBegin (off : Word) (s : State) : State :=
  { s with
    cstart := off, len := 0#32, tag := 0#32, rxcrc := 0#32, rem := 0#32, hdrv := false, crcState := crcInit,
    phase := .len, fcnt := 0#3 }

/-- The LEN phase (R203, R214). -/
def lenPush (b : Byte) (s : State) : State :=
  let s := { s with len := shiftIn s.len b }
  if s.fcnt < 3#3 then { s with fcnt := s.fcnt + 1#3 } else { s with fcnt := 0#3, phase := .tag }

/-- What follows a complete tag (R203, R215, R217). -/
def tagJudge (s : State) : State :=
  if validTag s.tag then
    { s with hdrv := true, rem := s.len, phase := if s.len = 0#32 then .crc else .data }
  else fail .invalidTagBytes s

/-- The TAG phase (R203, R215). -/
def tagPush (b : Byte) (s : State) : State :=
  let s := { s with tag := shiftIn s.tag b, crcState := crcByte s.crcState b }
  if s.fcnt < 3#3 then { s with fcnt := s.fcnt + 1#3 } else tagJudge { s with fcnt := 0#3 }

/-- The DATA phase (R203, R216). -/
def dataPush (b : Byte) (s : State) : State :=
  let s := { s with crcState := crcByte s.crcState b, rem := s.rem - 1#32 }
  if s.rem = 0#32 then { s with phase := .crc } else s

/-- What follows a complete checksum (R203, R218 to R222). -/
def crcJudge (s : State) : State :=
  if s.rxcrc = crcFinish s.crcState then
    { s with
      chunks := s.chunks + 1#32, phase := .bound, mode := if s.mode = .chunk then .done else s.mode }
  else fail .checksumMismatch s

/-- The CRC phase (R203, R218). -/
def checksumPush (b : Byte) (s : State) : State :=
  let s := { s with rxcrc := shiftIn s.rxcrc b }
  if s.fcnt < 3#3 then { s with fcnt := s.fcnt + 1#3 } else crcJudge { s with fcnt := 0#3 }

/-- DeframePush(b), the Push action of CHUNK and STREAM mode (R203). The byte is counted first (R210); a byte at BOUND
starts a chunk and is its first length byte (R213). PHASE = NONE is reached by no run (R47); R203 has no case for it and
the byte is only counted (log entry 6). -/
def deframePush (b : Byte) (s : State) : State :=
  let off := s.pos
  let s := { s with pos := s.pos + 1#32 }
  match s.phase with
  | .none => s
  | .sig => sigPush b s
  | .bound => lenPush b (chunkBegin off s)
  | .len => lenPush b s
  | .tag => tagPush b s
  | .data => dataPush b s
  | .crc => checksumPush b s

/-- ChunkEnd, the END action of CHUNK mode (R230). -/
def chunkEnd (s : State) : State := fail .unexpectedEof s

/-- StreamEnd, the END action of STREAM mode (R231). PHASE = NONE is reached by no run (R47); R231 has no case for it
and nothing changes (log entry 6). -/
def streamEnd (s : State) : State :=
  match s.phase with
  | .none => s
  | .sig => fail .badSignature s
  | .bound => { s with mode := .done }
  | .len => fail .trailingBytes s
  | .tag => fail .trailingBytes s
  | .data => fail .unexpectedEof s
  | .crc => fail .unexpectedEof s

/-- CMD_CHUNK_START (R201). -/
def execCmdChunkStart (_ignored : BitVec 28) (s : State) : Host.Outcome State Fault Refusal :=
  .next (whenStartable chunkStart s)

/-- CMD_STREAM_START (R202). -/
def execCmdStreamStart (_ignored : BitVec 28) (s : State) : Host.Outcome State Fault Refusal :=
  .next (whenStartable streamStart s)

/-- RD_RXCRC (R232). -/
def execRdRxcrc (_ignored : Word) (s : State) : Host.Outcome State Fault Refusal := respond s.rxcrc s

/-- RD_REM (R233). -/
def execRdRem (_ignored : Word) (s : State) : Host.Outcome State Fault Refusal := respond s.rem s

/-- RD_POS (R234). -/
def execRdPos (_ignored : Word) (s : State) : Host.Outcome State Fault Refusal := respond s.pos s

/-- RD_CHUNKS (R235). -/
def execRdChunks (_ignored : Word) (s : State) : Host.Outcome State Fault Refusal := respond s.chunks s

/-- RD_CSTART (R236). -/
def execRdCstart (_ignored : Word) (s : State) : Host.Outcome State Fault Refusal := respond s.cstart s

end Sys2Proof.Machine
end

