-- ==== Sys2Proof/Machine/Framer.lean ====
section
/-! DEFINITION. The framer (43_framer.md): FRAME mode, TAG and LEN. -/

namespace Sys2Proof.Machine

/-- FramePush(b), the Push action of FRAME mode (R182, R183). -/
def framePush (b : Byte) (s : State) : State :=
  if s.len = 0xFFFFFFFF#32 then fail .lengthOverflow s
  else { s with crcState := crcByte s.crcState b, len := s.len + 1#32, pos := s.pos + 1#32 }

/-- FrameEnd, the END action of FRAME mode (R184). -/
def frameEnd (s : State) : State := { s with mode := .done }

/-- What FRAME_START clears and seeds before it judges the tag (R181). -/
def frameClear (s : State) : State :=
  { s with err := none, phase := .none, fcnt := 0#3, hdrv := false, pos := 0#32, len := 0#32, crcState := crcInit }

/-- The effect of an accepted FRAME_START (R181). -/
def frameStart (s : State) : State :=
  if validTag s.tag then { frameClear s with crcState := crcUpdate crcInit (be32 s.tag), mode := .frame }
  else fail .invalidTagBytes (frameClear s)

/-- CMD_FRAME_START (R181). -/
def execCmdFrameStart (_ignored : BitVec 28) (s : State) : Host.Outcome State Fault Refusal :=
  .next (whenStartable frameStart s)

/-- WR_TAG (R186). -/
def execWrTag (value : Word) (s : State) : Host.Outcome State Fault Refusal :=
  .next (whenHostWritable (fun s => { s with tag := value, hdrv := false }) s)

/-- RD_TAG (R187). -/
def execRdTag (_ignored : Word) (s : State) : Host.Outcome State Fault Refusal := respond s.tag s

/-- RD_LEN (R188). -/
def execRdLen (_ignored : Word) (s : State) : Host.Outcome State Fault Refusal := respond s.len s

end Sys2Proof.Machine
end

