-- ==== Sys2Proof/Machine/Tag.lean ====
section
/-! DEFINITION. The tag checker (41_tag.md R134 to R136). -/

namespace Sys2Proof.Machine

/-- RD_TAGRES (R134). -/
def execRdTagres (_ignored : Word) (s : State) : Host.Outcome State Fault Refusal := respond (tagresWord s.tagchk) s

/-- WR_TAGCHK: accepted in every mode (R135, R41). -/
def execWrTagchk (value : Word) (s : State) : Host.Outcome State Fault Refusal := .next { s with tagchk := value }

/-- RD_TAGCHK (R136). -/
def execRdTagchk (_ignored : Word) (s : State) : Host.Outcome State Fault Refusal := respond s.tagchk s

end Sys2Proof.Machine
end

