-- ==== Sys2Proof/Machine/Control.lean ====
section
/-! DEFINITION. Control, status and generic register transactions, and the data input (40_control.md). -/

namespace Sys2Proof.Machine

/-! ### Data input -/

/-- Push(b): one input byte to the active function; an ignored access where none is active (R111). -/
def push (b : Byte) (s : State) : State :=
  match s.mode with
  | .crc => crcPush b s
  | .frame => framePush b s
  | .chunk => deframePush b s
  | .stream => deframePush b s
  | .idle => setIgn s
  | .done => setIgn s
  | .error => setIgn s

/-- A byte sequence, one Push a byte, in order: the mode is tested again for every byte (R111, R80). -/
def pushAll (bs : List Byte) (s : State) : State := bs.foldl (fun s b => push b s) s

/-- WR_DIN8 (R117); WDATA[31:8] is ignored. -/
def execWrDin8 (byte : Byte) (_ignored : BitVec 24) (s : State) : Host.Outcome State Fault Refusal := .next (push byte s)

/-- WR_DIN32: four Push actions in one step (R118). -/
def execWrDin32 (byte0 byte1 byte2 byte3 : Byte) (s : State) : Host.Outcome State Fault Refusal :=
  .next (push byte3 (push byte2 (push byte1 (push byte0 s))))

/-! ### Commands -/

/-- CMD_NOP (R113). -/
def execCmdNop (_ignored : BitVec 28) (s : State) : Host.Outcome State Fault Refusal := .next s

/-- END: the host says the input is complete (R114). -/
def endInput (s : State) : State :=
  match s.mode with
  | .crc => crcEnd s
  | .frame => frameEnd s
  | .chunk => chunkEnd s
  | .stream => streamEnd s
  | .idle => setIgn s
  | .done => setIgn s
  | .error => setIgn s

/-- CMD_END (R114). -/
def execCmdEnd (_ignored : BitVec 28) (s : State) : Host.Outcome State Fault Refusal := .next (endInput s)

/-- ABORT: back to IDLE; IGN and the data registers stay (R115, 70_reset_and_hazards.md R331). -/
def abort (s : State) : State :=
  { s with mode := .idle, err := none, phase := .none, fcnt := 0#3, hdrv := false, sigmatch := true }

/-- CMD_ABORT (R115). -/
def execCmdAbort (_ignored : BitVec 28) (s : State) : Host.Outcome State Fault Refusal := .next (abort s)

/-- CMD_CLR_IGN: IGN is cleared, the ghost mark of R283 is not (R119). -/
def execCmdClrIgn (_ignored : BitVec 28) (s : State) : Host.Outcome State Fault Refusal := .next { s with ign := false }

/-- CMD_RESERVED: an ignored access (R116). -/
def execCmdReserved (_cmd : BitVec 4) (_ignored : BitVec 28) (s : State) : Host.Outcome State Fault Refusal := .next (setIgn s)

/-! ### Reads -/

/-- ID_VALUE, the letters "PNGC" (R27). -/
def idValue : Word := 0x504E4743#32

/-- VERSION_VALUE, version 1.0 (R28). -/
def versionValue : Word := 0x00010000#32

/-- RD_ID (R105). -/
def execRdId (_ignored : Word) (s : State) : Host.Outcome State Fault Refusal := respond idValue s

/-- RD_VERSION (R109). -/
def execRdVersion (_ignored : Word) (s : State) : Host.Outcome State Fault Refusal := respond versionValue s

/-- RD_STATUS (R106). -/
def execRdStatus (_ignored : Word) (s : State) : Host.Outcome State Fault Refusal := respond (statusWord s) s

/-- RD_CTRL: a read of a write-only register gives 0 (R104). -/
def execRdCtrl (_ignored : Word) (s : State) : Host.Outcome State Fault Refusal := respond 0#32 s

/-- RD_DIN8: a read of a write-only register gives 0 (R104). -/
def execRdDin8 (_ignored : Word) (s : State) : Host.Outcome State Fault Refusal := respond 0#32 s

/-- RD_DIN32: a read of a write-only register gives 0 (R104). -/
def execRdDin32 (_ignored : Word) (s : State) : Host.Outcome State Fault Refusal := respond 0#32 s

/-- RD_MISALIGNED with OFF[0] = 1 gives 0 (R110). -/
def execRdMisalignedOdd (_off : Offset) (_ignored : Word) (s : State) : Host.Outcome State Fault Refusal := respond 0#32 s

/-- RD_MISALIGNED with OFF[1:0] = 10 gives 0 (R110). -/
def execRdMisalignedEven (_off : Offset) (_ignored : Word) (s : State) : Host.Outcome State Fault Refusal := respond 0#32 s

/-- RD_RESERVED gives 0 (R120). -/
def execRdReserved (_off : Offset) (_ignored : Word) (s : State) : Host.Outcome State Fault Refusal := respond 0#32 s

/-! ### Writes that are ignored accesses in every mode -/

/-- WR_MISALIGNED with OFF[0] = 1 (R107). -/
def execWrMisalignedOdd (_off : Offset) (_ignored : Word) (s : State) : Host.Outcome State Fault Refusal := .next (setIgn s)

/-- WR_MISALIGNED with OFF[1:0] = 10 (R107). -/
def execWrMisalignedEven (_off : Offset) (_ignored : Word) (s : State) : Host.Outcome State Fault Refusal := .next (setIgn s)

/-- WR_RESERVED (R108). -/
def execWrReserved (_off : Offset) (_ignored : Word) (s : State) : Host.Outcome State Fault Refusal := .next (setIgn s)

/-- WR_ID: a write to a read-only register (R103). -/
def execWrId (_value : Word) (s : State) : Host.Outcome State Fault Refusal := .next (setIgn s)

/-- WR_VERSION: a write to a read-only register (R103). -/
def execWrVersion (_value : Word) (s : State) : Host.Outcome State Fault Refusal := .next (setIgn s)

/-- WR_STATUS: a write to a read-only register (R103). -/
def execWrStatus (_value : Word) (s : State) : Host.Outcome State Fault Refusal := .next (setIgn s)

/-- WR_CRC_VALUE: a write to a read-only register (R103). -/
def execWrCrcValue (_value : Word) (s : State) : Host.Outcome State Fault Refusal := .next (setIgn s)

/-- WR_LEN: a write to a read-only register (R103). -/
def execWrLen (_value : Word) (s : State) : Host.Outcome State Fault Refusal := .next (setIgn s)

/-- WR_RXCRC: a write to a read-only register (R103). -/
def execWrRxcrc (_value : Word) (s : State) : Host.Outcome State Fault Refusal := .next (setIgn s)

/-- WR_REM: a write to a read-only register (R103). -/
def execWrRem (_value : Word) (s : State) : Host.Outcome State Fault Refusal := .next (setIgn s)

/-- WR_POS: a write to a read-only register (R103). -/
def execWrPos (_value : Word) (s : State) : Host.Outcome State Fault Refusal := .next (setIgn s)

/-- WR_CHUNKS: a write to a read-only register (R103). -/
def execWrChunks (_value : Word) (s : State) : Host.Outcome State Fault Refusal := .next (setIgn s)

/-- WR_CSTART: a write to a read-only register (R103). -/
def execWrCstart (_value : Word) (s : State) : Host.Outcome State Fault Refusal := .next (setIgn s)

/-- WR_TAGRES: a write to a read-only register (R103). -/
def execWrTagres (_value : Word) (s : State) : Host.Outcome State Fault Refusal := .next (setIgn s)

end Sys2Proof.Machine
end

