-- ==== Sys2Proof/Machine/Dispatch.lean ====
section
/-! DEFINITION. The dispatch: one arm per instruction, each a direct call of its meaning (40_control.md R100). -/

namespace Sys2Proof.Machine

def exec (i : Instr) (s : State) : Host.Outcome State Fault Refusal :=
  match i with
  | .rdId ignored => Sys2Proof.Machine.execRdId ignored s
  | .wrId value => Sys2Proof.Machine.execWrId value s
  | .rdVersion ignored => Sys2Proof.Machine.execRdVersion ignored s
  | .wrVersion value => Sys2Proof.Machine.execWrVersion value s
  | .rdCtrl ignored => Sys2Proof.Machine.execRdCtrl ignored s
  | .cmdNop ignored => Sys2Proof.Machine.execCmdNop ignored s
  | .cmdCrcStart ignored => Sys2Proof.Machine.execCmdCrcStart ignored s
  | .cmdFrameStart ignored => Sys2Proof.Machine.execCmdFrameStart ignored s
  | .cmdChunkStart ignored => Sys2Proof.Machine.execCmdChunkStart ignored s
  | .cmdStreamStart ignored => Sys2Proof.Machine.execCmdStreamStart ignored s
  | .cmdEnd ignored => Sys2Proof.Machine.execCmdEnd ignored s
  | .cmdAbort ignored => Sys2Proof.Machine.execCmdAbort ignored s
  | .cmdClrIgn ignored => Sys2Proof.Machine.execCmdClrIgn ignored s
  | .cmdReserved cmd ignored => Sys2Proof.Machine.execCmdReserved cmd ignored s
  | .rdStatus ignored => Sys2Proof.Machine.execRdStatus ignored s
  | .wrStatus value => Sys2Proof.Machine.execWrStatus value s
  | .rdCrcState ignored => Sys2Proof.Machine.execRdCrcState ignored s
  | .wrCrcState value => Sys2Proof.Machine.execWrCrcState value s
  | .rdCrcValue ignored => Sys2Proof.Machine.execRdCrcValue ignored s
  | .wrCrcValue value => Sys2Proof.Machine.execWrCrcValue value s
  | .rdDin8 ignored => Sys2Proof.Machine.execRdDin8 ignored s
  | .wrDin8 byte ignored => Sys2Proof.Machine.execWrDin8 byte ignored s
  | .rdDin32 ignored => Sys2Proof.Machine.execRdDin32 ignored s
  | .wrDin32 byte0 byte1 byte2 byte3 => Sys2Proof.Machine.execWrDin32 byte0 byte1 byte2 byte3 s
  | .rdTag ignored => Sys2Proof.Machine.execRdTag ignored s
  | .wrTag value => Sys2Proof.Machine.execWrTag value s
  | .rdLen ignored => Sys2Proof.Machine.execRdLen ignored s
  | .wrLen value => Sys2Proof.Machine.execWrLen value s
  | .rdRxcrc ignored => Sys2Proof.Machine.execRdRxcrc ignored s
  | .wrRxcrc value => Sys2Proof.Machine.execWrRxcrc value s
  | .rdRem ignored => Sys2Proof.Machine.execRdRem ignored s
  | .wrRem value => Sys2Proof.Machine.execWrRem value s
  | .rdPos ignored => Sys2Proof.Machine.execRdPos ignored s
  | .wrPos value => Sys2Proof.Machine.execWrPos value s
  | .rdChunks ignored => Sys2Proof.Machine.execRdChunks ignored s
  | .wrChunks value => Sys2Proof.Machine.execWrChunks value s
  | .rdCstart ignored => Sys2Proof.Machine.execRdCstart ignored s
  | .wrCstart value => Sys2Proof.Machine.execWrCstart value s
  | .rdTagchk ignored => Sys2Proof.Machine.execRdTagchk ignored s
  | .wrTagchk value => Sys2Proof.Machine.execWrTagchk value s
  | .rdTagres ignored => Sys2Proof.Machine.execRdTagres ignored s
  | .wrTagres value => Sys2Proof.Machine.execWrTagres value s
  | .rdMisalignedOdd off ignored => Sys2Proof.Machine.execRdMisalignedOdd off ignored s
  | .rdMisalignedEven off ignored => Sys2Proof.Machine.execRdMisalignedEven off ignored s
  | .wrMisalignedOdd off ignored => Sys2Proof.Machine.execWrMisalignedOdd off ignored s
  | .wrMisalignedEven off ignored => Sys2Proof.Machine.execWrMisalignedEven off ignored s
  | .rdReserved off ignored => Sys2Proof.Machine.execRdReserved off ignored s
  | .wrReserved off ignored => Sys2Proof.Machine.execWrReserved off ignored s

end Sys2Proof.Machine
end

