-- ==== Sys2Proof/Machine/Step.lean ====
section
/-! DEFINITION. One step: the next thing the bus delivers (40_control.md R100). A transaction is one atomic step
(00_scope.md R14). -/

namespace Sys2Proof.Machine

/-- The step: decode the transaction the bus delivers next and perform it (R100). -/
def step (s : State) : Host.Outcome State Fault Refusal :=
  match s.bus with
  | [] => busIdle s
  | .transaction t :: rest => exec (decode t) { s with bus := rest }
  | .platform e :: rest => platformEvent e { s with bus := rest }

/-- The state in which the bus delivers the instruction in a row's bits next (log entry 2). -/
def State.withFetchWord (s : State) (nbits w : Nat) : State := postBits nbits w s

end Sys2Proof.Machine
end

