-- ==== Sys2Proof/Machine/Assembler.lean ====
section
/-! DEFINITION. The assembler syntax of host programs and its pseudo-instructions (30_encoding.md R79, R80), as lines
that expand to transaction words. -/

namespace Sys2Proof.Machine

/-- NAME: a register name, or an offset written `@0xNN` (R79). -/
inductive Name where
  | reg (r : Reg)
  | offset (off : Offset)
  deriving DecidableEq, Repr

/-- CNAME: a command name of R72, or `#n` for the raw code n (R79). -/
inductive CmdName where
  | nop | crcStart | frameStart | chunkStart | streamStart | endInput | abort | clrIgn
  | raw (n : BitVec 4)
  deriving DecidableEq, Repr

/-- A line of a host program: the three base lines of R79 and the pseudo-instructions of R80. -/
inductive Line where
  | rd (name : Name)
  | wr (name : Name) (value : Word)
  | cmd (name : CmdName)
  | push8 (b : Byte)
  | push32 (w : Word)
  | pushb (bs : List Byte)
  | pushs (text : List Char)
  | expect (name : Name) (value : Word)
  | settag (a b c d : Char)
  deriving DecidableEq, Repr

/-- The offset of a name (R79, R23). -/
def nameOffset : Name → Offset
  | .reg r => regOffset r
  | .offset off => off

/-- The code of a command name (R72). -/
def cmdCode : CmdName → BitVec 4
  | .nop => 0x0#4
  | .crcStart => 0x1#4
  | .frameStart => 0x2#4
  | .chunkStart => 0x3#4
  | .streamStart => 0x4#4
  | .endInput => 0x5#4
  | .abort => 0x6#4
  | .clrIgn => 0x7#4
  | .raw n => n

/-- `rd NAME`: WDATA is 0 (R79). -/
def asmRd (n : Name) : Txn := word 0#1 (nameOffset n) 0#32

/-- `wr NAME, value` (R79). -/
def asmWr (n : Name) (v : Word) : Txn := word 1#1 (nameOffset n) v

/-- `cmd CNAME`: a write of the code to CTRL (R79). -/
def asmCmd (c : CmdName) : Txn := asmWr (.reg .ctrl) ((cmdCode c).setWidth 32)

/-- `push8 b` (R80). -/
def asmPush8 (b : Byte) : Txn := asmWr (.reg .din8) (b.setWidth 32)

/-- `push32 w` (R80). -/
def asmPush32 (w : Word) : Txn := asmWr (.reg .din32) w

/-- `pushb`: a DIN32 write for each full group of four bytes, then a DIN8 write for each byte left (R80); the host
assembles the word big-endian (45_host.md R280). -/
def asmPushb : List Byte → List Txn
  | b0 :: b1 :: b2 :: b3 :: rest => asmPush32 (b0 ++ b1 ++ b2 ++ b3) :: asmPushb rest
  | bs => bs.map asmPush8

/-- The ASCII code of a character, as a byte; the text of a program is ASCII (R80). -/
def asciiByte (c : Char) : Byte := BitVec.ofNat 8 c.toNat

/-- The transactions a line stands for (R79, R80). `expect` reads the register; what it claims of the value read has no
effect on the block. -/
def expand : Line → List Txn
  | .rd n => [asmRd n]
  | .wr n v => [asmWr n v]
  | .cmd c => [asmCmd c]
  | .push8 b => [asmPush8 b]
  | .push32 w => [asmPush32 w]
  | .pushb bs => asmPushb bs
  | .pushs text => asmPushb (text.map asciiByte)
  | .expect n _ => [asmRd n]
  | .settag a b c d => [asmWr (.reg .tag) (asciiByte a ++ asciiByte b ++ asciiByte c ++ asciiByte d)]

/-- The transactions of a host program. -/
def assemble (p : List Line) : List Txn := p.flatMap expand

end Sys2Proof.Machine
end

