-- ==== Sys2Proof/Machine/HostChunk.lean ====
section
/-! DEFINITION. Host reference semantics of tags and chunks (45_host.md R251 to R255) and the outcome of a chunk parse
as 44_deframer.md R238 states it. Host values, not block state (R250). -/

namespace Sys2Proof.Machine

/-- A host chunk record (R251). -/
structure Record where
  length : Word
  tag : Word
  data : List Byte
  checksum : Word
  deriving DecidableEq, Repr

/-- What every record the host makes satisfies (R251). -/
abbrev Record.valid (c : Record) : Prop :=
  validTag c.tag = true ∧ c.data.length = c.length.toNat ∧ c.checksum = crc32 (be32 c.tag ++ c.data)

/-- The serialized form of a chunk with tag word t and payload d (43_framer.md R185). -/
def frame (t : Word) (d : List Byte) : List Byte :=
  be32 (BitVec.ofNat 32 d.length) ++ be32 t ++ d ++ be32 (crc32 (be32 t ++ d))

/-- `serialize(c)`, from the stored fields (R254). -/
def serialize (c : Record) : List Byte := be32 c.length ++ be32 c.tag ++ c.data ++ be32 c.checksum

/-- An ASCII letter as a character (R252). -/
def isAsciiLetter (c : Char) : Bool :=
  (decide (0x41 ≤ c.toNat) && decide (c.toNat ≤ 0x5A)) || (decide (0x61 ≤ c.toNat) && decide (c.toNat ≤ 0x7A))

/-- `from_string(s)`: text to a tag word; the length is counted in characters (R252). -/
def fromString (s : List Char) : Except ErrKind Word :=
  match s with
  | [c0, c1, c2, c3] =>
    if isAsciiLetter c0 && isAsciiLetter c1 && isAsciiLetter c2 && isAsciiLetter c3 then
      .ok (ofWire (BitVec.ofNat 8 c0.toNat) (BitVec.ofNat 8 c1.toNat) (BitVec.ofNat 8 c2.toNat) (BitVec.ofNat 8 c3.toNat))
    else .error .invalidTagBytes
  | _ => .error .invalidTagLength

/-- A tag's string form: its four letters in order (R252). -/
def tagString (t : Word) : List Char := (be32 t).map (fun b => Char.ofNat b.toNat)

/-- The byte-wise order of tags: the unsigned order of the words (41_tag.md R133). -/
def tagLe (a b : Word) : Bool := decide (a ≤ b)

/-- The big-endian word at the front of a byte sequence, and what follows it. -/
def takeWord : List Byte → Option (Word × List Byte)
  | b0 :: b1 :: b2 :: b3 :: rest => some (ofWire b0 b1 b2 b3, rest)
  | _ => none

/-- `Chunk::parse(B)`, decided by the first field that fails, in the source's order (44_deframer.md R238): the record
and the bytes after the chunk, or the error kind. -/
def parseChunk (bytes : List Byte) : Except ErrKind (Record × List Byte) :=
  match takeWord bytes with
  | none => .error .unexpectedEof
  | some (l, afterLength) =>
    match takeWord afterLength with
    | none => .error .unexpectedEof
    | some (t, body) =>
      if validTag t then
        match takeWord (body.drop l.toNat) with
        | none => .error .unexpectedEof
        | some (x, rest) =>
          if x = crc32 (be32 t ++ body.take l.toNat) then
            .ok (⟨l, t, body.take l.toNat, x⟩, rest)
          else .error .checksumMismatch
      else .error .invalidTagBytes

end Sys2Proof.Machine
end

