-- ==== Sys2Proof/Machine/HostContainer.lean ====
section
/-! DEFINITION. Host reference semantics of containers and text (45_host.md R256 to R264) and the outcome of a stream
parse as 44_deframer.md R239 states it. Host values, not block state (R250). -/

namespace Sys2Proof.Machine

/-- A container: the fixed signature, which is not stored, and the chunk list in stream order (R256). -/
abbrev Container := List Record

/-- What the framing of a stream gives (44_deframer.md R239): the good chunks in order, and the failure, if any, as its
kind and the offset of the failing chunk. -/
structure Framing where
  chunks : List Record
  failure : Option (ErrKind × Nat)
  deriving DecidableEq, Repr

/-- R239 step 2 over the bytes that remain, the first of them at offset `off`. Each chunk takes at least twelve bytes,
so as many rounds as there are bytes are always enough. -/
def frameChunks : Nat → Nat → List Byte → Framing
  | _, _, [] => ⟨[], none⟩
  | 0, off, _ :: _ => ⟨[], some (.trailingBytes, off)⟩
  | n + 1, off, b :: bs =>
    match parseChunk (b :: bs) with
    | .ok (c, rest) =>
      let f := frameChunks n (off + 12 + c.length.toNat) rest
      ⟨c :: f.chunks, f.failure⟩
    | .error k => ⟨[], some (if (b :: bs).length < 8 then .trailingBytes else k, off)⟩

/-- `Container::parse(B)` as far as the framing goes (R239). -/
def frameStream (bytes : List Byte) : Framing :=
  if bytes.take 8 = signature then frameChunks bytes.length 8 (bytes.drop 8)
  else ⟨[], some (.badSignature, 0)⟩

/-- The host's walk over a stream the block has accepted, from offset 8 on (R256 step 3). -/
def walkRecords : Nat → List Byte → Option (List Record)
  | _, [] => some []
  | 0, _ :: _ => none
  | n + 1, b :: bs =>
    match takeWord (b :: bs) with
    | none => none
    | some (l, afterLength) =>
      match takeWord afterLength with
      | none => none
      | some (t, body) =>
        match takeWord (body.drop l.toNat) with
        | none => none
        | some (x, rest) => (walkRecords n rest).map (fun cs => ⟨l, t, body.take l.toNat, x⟩ :: cs)

/-- `append_chunk(c)`: at the literal end, after any trailer (R258, 90_conflicts.md C3). -/
def appendChunk (p : Container) (c : Record) : Container := p ++ [c]

/-- Whether a record's tag has the string form s (R259). -/
def hasTagString (s : List Char) (c : Record) : Bool := tagString c.tag == s

/-- `chunk_by_type(s)`: the first record with that tag, or none, which is no failure (R259). -/
def chunkByType (p : Container) (s : List Char) : Option Record := p.find? (hasTagString s)

/-- `remove_chunk(s)`: the first match is removed and returned, the others keep their order; no match is ChunkNotFound
(R260). -/
def removeChunk (p : Container) (s : List Char) : Except ErrKind (Record × Container) :=
  match p.find? (hasTagString s) with
  | some c => .ok (c, p.eraseP (hasTagString s))
  | none => .error .chunkNotFound

/-- `as_bytes()` (R261). -/
def asBytes (p : Container) : List Byte := signature ++ p.flatMap serialize

/-- A continuation byte 80..BF of UTF-8. -/
def utf8Cont (b : Byte) : Bool := decide (0x80#8 ≤ b) && decide (b ≤ 0xBF#8)

/-- The well-formed two-byte sequences: C2..DF 80..BF. -/
def utf8Two (b0 b1 : Byte) : Bool := decide (0xC2#8 ≤ b0) && decide (b0 ≤ 0xDF#8) && utf8Cont b1

/-- The well-formed three-byte sequences: the second byte is A0..BF after E0, 80..9F after ED, else 80..BF. -/
def utf8Three (b0 b1 b2 : Byte) : Bool :=
  decide (0xE0#8 ≤ b0) && decide (b0 ≤ 0xEF#8) && utf8Cont b1 && utf8Cont b2
    && !(b0 == 0xE0#8 && decide (b1 < 0xA0#8)) && !(b0 == 0xED#8 && decide (0x9F#8 < b1))

/-- The well-formed four-byte sequences: the second byte is 90..BF after F0, 80..8F after F4, else 80..BF. -/
def utf8Four (b0 b1 b2 b3 : Byte) : Bool :=
  decide (0xF0#8 ≤ b0) && decide (b0 ≤ 0xF4#8) && utf8Cont b1 && utf8Cont b2 && utf8Cont b3
    && !(b0 == 0xF0#8 && decide (b1 < 0x90#8)) && !(b0 == 0xF4#8 && decide (0x8F#8 < b1))

/-- The characters of a well-formed UTF-8 byte sequence, none for any other. The well-formed sequences are those of the
Unicode standard. PRESUMED (R262 names the standard, G3): log entry 8. -/
def utf8Decode : List Byte → Option (List Char)
  | [] => some []
  | b0 :: r0 =>
    if b0 < 0x80#8 then (utf8Decode r0).map (Char.ofNat b0.toNat :: ·)
    else match r0 with
      | [] => none
      | b1 :: r1 =>
        if utf8Two b0 b1 then
          (utf8Decode r1).map (Char.ofNat (b0.toNat % 32 * 64 + b1.toNat % 64) :: ·)
        else match r1 with
          | [] => none
          | b2 :: r2 =>
            if utf8Three b0 b1 b2 then
              (utf8Decode r2).map
                (Char.ofNat (b0.toNat % 16 * 4096 + b1.toNat % 64 * 64 + b2.toNat % 64) :: ·)
            else match r2 with
              | [] => none
              | b3 :: r3 =>
                if utf8Four b0 b1 b2 b3 then
                  (utf8Decode r3).map
                    (Char.ofNat (b0.toNat % 8 * 262144 + b1.toNat % 64 * 4096 + b2.toNat % 64 * 64 + b3.toNat % 64) :: ·)
                else none

/-- `data_as_text(c)` (R262). -/
def dataAsText (c : Record) : Except ErrKind (List Char) :=
  match utf8Decode c.data with
  | some text => .ok text
  | none => .error .invalidUtf8

/-- `to_display_text()`: a value of no fixed form (R263, I12). -/
def toDisplayText (p : Container) : List Char := Config.displayText (asBytes p)

end Sys2Proof.Machine
end

