-- ==== Sys2Proof/Machine/HostDrive.lean ====
section
/-! DEFINITION. The host driving the block: issuing transactions, and the operations that use it, Chunk::new,
Chunk::parse and Container::parse (43_framer.md R189, 45_host.md R253, R255, R256). -/

namespace Sys2Proof.Machine

/-- The host issues transactions one after another; `none` if one of them stopped (R100 says that none does). -/
def issue : List Txn → State → Option State
  | [], s => some s
  | t :: ts, s =>
    match exec (decode t) s with
    | .next s' => issue ts s'
    | .fault _ => none
    | .refused _ => none

/-- The host reads a register: RDATA, and the state after the read. -/
def readReg (r : Reg) (s : State) : Option (Word × State) :=
  match issue [asmRd (.reg r)] s with
  | some s' => s'.rdata.getLast?.map (fun v => (v, s'))
  | none => none

/-- MODE in a value of STATUS (10_state.md R24). -/
def modeField (status : Word) : BitVec 3 := status.extractLsb' 0 3

/-- ERR in a value of STATUS (R24). -/
def errField (status : Word) : BitVec 4 := status.extractLsb' 4 4

/-- The error kind of a code (60_exceptions.md R300); 0 and 10 to 15 name none. -/
def errKindOfCode (code : BitVec 4) : Option ErrKind :=
  [ErrKind.invalidTagLength, .invalidTagBytes, .unexpectedEof, .checksumMismatch, .badSignature, .trailingBytes,
    .chunkNotFound, .invalidUtf8, .lengthOverflow].find? (fun k => errKindCode k == code)

/-- A failed parse as the host reports it: ERR with the offsets CSTART and POS (R257, 44_deframer.md R237). -/
structure Failure where
  kind : ErrKind
  cstart : Word
  pos : Word
  deriving DecidableEq, Repr

/-- The failure in a STATUS value and the two offset registers. -/
def readFailure (status : Word) (s : State) : Option (Failure × State) := do
  let kind ← errKindOfCode (errField status)
  let (cstart, s) ← readReg .cstart s
  let (pos, s) ← readReg .pos s
  return (⟨kind, cstart, pos⟩, s)

/-- `Chunk::new(t, d)` by the framer sequence of R189 (R253). DESIGN CHOICE (log entry 13): the host learns of a
LengthOverflow by a read of STATUS after END, which R189 does not list and R253 leaves open; so one value more is read. -/
def hostChunkNew (t : Word) (d : List Byte) (s : State) : Option (Except ErrKind Record × State) := do
  let s ← issue [asmWr (.reg .tag) t, asmCmd .frameStart] s
  let (status, s) ← readReg .status s
  if modeField status = 6#3 then
    let kind ← errKindOfCode (errField status)
    return (.error kind, s)
  let s ← issue (asmPushb d ++ [asmCmd .endInput]) s
  let (status, s) ← readReg .status s
  if modeField status = 6#3 then
    let kind ← errKindOfCode (errField status)
    return (.error kind, s)
  let (len, s) ← readReg .len s
  let (tag, s) ← readReg .tag s
  let (crc, s) ← readReg .crcValue s
  return (.ok ⟨len, tag, d, crc⟩, s)

/-- `Chunk::parse(B)` by R255. -/
def hostParseChunk (bytes : List Byte) (s : State) : Option (Except Failure Record × State) := do
  let s ← issue (asmCmd .chunkStart :: asmPushb bytes) s
  let (status, s) ← readReg .status s
  let s ← issue (if modeField status = 3#3 then [asmCmd .endInput] else []) s
  let (status, s) ← readReg .status s
  if modeField status = 5#3 then
    let (len, s) ← readReg .len s
    let (tag, s) ← readReg .tag s
    let (crc, s) ← readReg .rxcrc s
    return (.ok ⟨len, tag, (bytes.drop 8).take len.toNat, crc⟩, s)
  let (f, s) ← readFailure status s
  return (.error f, s)

/-- `Container::parse(B)` by R256; a failed parse produces no container (R257). -/
def hostParseContainer (bytes : List Byte) (s : State) : Option (Except Failure Container × State) := do
  let s ← issue (asmCmd .streamStart :: asmPushb bytes ++ [asmCmd .endInput]) s
  let (status, s) ← readReg .status s
  if modeField status = 5#3 then
    let p ← walkRecords bytes.length (bytes.drop 8)
    return (.ok p, s)
  let (f, s) ← readFailure status s
  return (.error f, s)

end Sys2Proof.Machine
end

