-- ==== Sys2Proof/Safety.lean ====
section
/-! DEFINITION. What a safe run is, in the terms claims use: the launch premises (45_host.md R284), the acceptance
table (40_control.md R101), the invariants (10_state.md R47) and the end of a run (R283). -/

namespace Sys2Proof.Machine

/-! ### Launch premises (R284) -/

/-- `AtReset`: the block state is that of R46. -/
abbrev AtReset (s : State) : Prop := resetBlock s = s

/-- `Startable`: MODE is IDLE, DONE or ERROR. -/
abbrev Startable (s : State) : Prop := startable s.mode = true

/-- `NoIgnored`: IGN = 0. -/
abbrev NoIgnored (s : State) : Prop := s.ign = false

/-- `SingleMaster`: no agent but the host program issues transactions. -/
abbrev SingleMaster (s : State) : Prop := BusEvent.platform .secondMaster ∉ s.bus

/-- `DeviceOrdered`: every access reaches the block once, aligned, 32 bits wide, in program order. DESIGN CHOICE (log
entry 14): 'aligned' bars no transaction with OFF[1:0] != 00; R284 leaves open whether it does. Such a transaction is one
32-bit access with a meaning (40_control.md R107, R110). -/
abbrev DeviceOrdered (s : State) : Prop :=
  BusEvent.platform .narrowAccess ∉ s.bus ∧ BusEvent.platform .disorderedAccess ∉ s.bus

/-- Every transaction the host issues eventually completes (R340, I9). -/
abbrev BusCompletes (s : State) : Prop := BusEvent.platform .stall ∉ s.bus

/-! ### Acceptance (R101) -/

/-- The acceptance table of R101: whether a transaction's rule runs in a mode, or the transaction is ignored. For
WR_DIN32 it is the entry of its first byte: the mode is tested again for every byte (R111). -/
def accepted (m : Mode) : Instr → Bool
  | .cmdCrcStart _ | .cmdFrameStart _ | .cmdChunkStart _ | .cmdStreamStart _ => startable m
  | .cmdEnd _ | .wrDin8 _ _ | .wrDin32 _ _ _ _ => !startable m
  | .cmdAbort _ | .cmdClrIgn _ | .cmdNop _ => true
  | .wrCrcState _ | .wrTag _ => hostWritable m
  | .wrTagchk _ => true
  | .rdId _ | .rdVersion _ | .rdCtrl _ | .rdStatus _ | .rdCrcState _ | .rdCrcValue _ | .rdDin8 _ | .rdDin32 _
  | .rdTag _ | .rdLen _ | .rdRxcrc _ | .rdRem _ | .rdPos _ | .rdChunks _ | .rdCstart _ | .rdTagchk _ | .rdTagres _
  | .rdMisalignedOdd _ _ | .rdMisalignedEven _ _ | .rdReserved _ _ => true
  | .wrId _ | .wrVersion _ | .wrStatus _ | .wrCrcValue _ | .wrLen _ | .wrRxcrc _ | .wrRem _ | .wrPos _ | .wrChunks _
  | .wrCstart _ | .wrTagres _ | .cmdReserved _ _ | .wrMisalignedOdd _ _ | .wrMisalignedEven _ _ | .wrReserved _ _ =>
    false

/-! ### Invariants -/

/-- The combinations of MODE, PHASE and FCNT that R47's table allows. In ERROR the phase and the count are those at the
moment of the error; no error is raised at BOUND (R230, R231). -/
def statusLegal (m : Mode) (p : Phase) (f : BitVec 3) : Bool :=
  match m, p with
  | .idle, .none | .crc, .none | .frame, .none => decide (f = 0#3)
  | .chunk, .len | .chunk, .tag | .chunk, .crc => decide (f < 4#3)
  | .chunk, .data => decide (f = 0#3)
  | .stream, .sig => true
  | .stream, .len | .stream, .tag | .stream, .crc => decide (f < 4#3)
  | .stream, .bound | .stream, .data => decide (f = 0#3)
  | .done, .none | .done, .bound => decide (f = 0#3)
  | .error, .sig => true
  | .error, .len | .error, .tag | .error, .crc => decide (f < 4#3)
  | .error, .none | .error, .data => decide (f = 0#3)
  | _, _ => false

/-- The error codes the block raises: 2, 3, 4, 5, 6 and 9 (60_exceptions.md R300, R305). -/
def blockRaises : ErrKind → Bool
  | .invalidTagBytes | .unexpectedEof | .checksumMismatch | .badSignature | .trailingBytes | .lengthOverflow => true
  | .invalidTagLength | .chunkNotFound | .invalidUtf8 => false

/-- The invariants of R47: the status table; ERR is nonzero iff MODE is ERROR, and is a code the block raises; in DATA,
1 <= REM <= LEN; HDRV = 1 implies a valid TAG, and with it that the chunk's header is complete, which it is in DATA, CRC
and BOUND only (44_deframer.md R215; 70_reset_and_hazards.md R339). -/
abbrev StatusInv (s : State) : Prop :=
  statusLegal s.mode s.phase s.fcnt = true
    ∧ (s.err.isSome = true ↔ s.mode = .error)
    ∧ s.err.all blockRaises = true
    ∧ (s.phase = .data → 1#32 ≤ s.rem ∧ s.rem ≤ s.len)
    ∧ (s.hdrv = true → validTag s.tag = true ∧ (s.phase = .data ∨ s.phase = .crc ∨ s.phase = .bound))

/-- Where a deframing function stands in its chunk: POS against CSTART in every phase (modulo 2^32), HDRV, and what has
not been received yet (44_deframer.md R203, R210 to R222; 70_reset_and_hazards.md R339). -/
abbrev DeframeProgress (s : State) : Prop :=
  (s.phase = .sig → s.pos = s.fcnt.setWidth 32 ∧ s.cstart = 0#32 ∧ s.chunks = 0#32 ∧ s.hdrv = false ∧ s.rem = 0#32)
    ∧ (s.phase = .bound → s.rem = 0#32 ∧ (s.hdrv = false → s.pos = 8#32 ∧ s.cstart = 0#32 ∧ s.chunks = 0#32)
        ∧ (s.hdrv = true → s.pos = s.cstart + 12#32 + s.len ∧ s.rxcrc = crcFinish s.crcState))
    ∧ (s.phase = .len → s.pos = s.cstart + s.fcnt.setWidth 32 ∧ s.hdrv = false ∧ s.tag = 0#32 ∧ s.rxcrc = 0#32
        ∧ s.rem = 0#32 ∧ s.crcState = 0xFFFFFFFF#32 ∧ (s.mode = .stream → s.fcnt ≠ 0#3))
    ∧ (s.phase = .tag → s.pos = s.cstart + 4#32 + s.fcnt.setWidth 32 ∧ s.hdrv = false ∧ s.rxcrc = 0#32 ∧ s.rem = 0#32)
    ∧ (s.phase = .data → s.pos + s.rem = s.cstart + 8#32 + s.len ∧ s.hdrv = true ∧ s.rxcrc = 0#32)
    ∧ (s.phase = .crc → s.pos = s.cstart + 8#32 + s.len + s.fcnt.setWidth 32 ∧ s.hdrv = true ∧ s.rem = 0#32)
    ∧ (s.mode = .chunk → s.cstart = 0#32 ∧ s.chunks = 0#32)
    ∧ (s.mode = .stream → s.phase ≠ .sig → s.sigmatch = true)

/-- What each error leaves in POS, CSTART, LEN, PHASE and FCNT (60_exceptions.md R301 to R307). -/
abbrev ErrorRecord (s : State) : Prop :=
  (s.err = some .invalidTagBytes →
      (s.phase = .none ∧ s.pos = 0#32 ∧ s.len = 0#32)
        ∨ (s.phase = .tag ∧ s.fcnt = 0#3 ∧ s.hdrv = false ∧ s.pos = s.cstart + 8#32))
    ∧ (s.err = some .unexpectedEof →
      s.phase = .len ∨ s.phase = .tag ∨ (s.phase = .data ∧ s.pos + s.rem = s.cstart + 8#32 + s.len)
        ∨ (s.phase = .crc ∧ s.pos = s.cstart + 8#32 + s.len + s.fcnt.setWidth 32))
    ∧ (s.err = some .checksumMismatch → s.phase = .crc ∧ s.fcnt = 0#3 ∧ s.pos = s.cstart + 12#32 + s.len)
    ∧ (s.err = some .badSignature →
      s.phase = .sig ∧ s.cstart = 0#32 ∧ s.chunks = 0#32
        ∧ ((s.pos = 8#32 ∧ s.fcnt = 0#3 ∧ s.sigmatch = false) ∨ s.pos = s.fcnt.setWidth 32))
    ∧ (s.err = some .trailingBytes →
      (s.phase = .len ∨ s.phase = .tag) ∧ 1#32 ≤ s.pos - s.cstart ∧ s.pos - s.cstart ≤ 7#32)
    ∧ (s.err = some .lengthOverflow → s.len = 0xFFFFFFFF#32 ∧ s.pos = 0xFFFFFFFF#32)

/-- Where the running function stands: the deframer's progress, the framer's POS = LEN and valid TAG (43_framer.md R182,
R186), and what an error has left. -/
abbrev ProgressInv (s : State) : Prop :=
  (s.mode = .chunk ∨ s.mode = .stream → DeframeProgress s)
    ∧ (s.mode = .frame → s.pos = s.len ∧ validTag s.tag = true ∧ s.hdrv = false)
    ∧ (s.mode = .error → ErrorRecord s)

/-! ### The end of a run (R283) -/

/-- A run: the steps of everything the bus delivers. -/
def runBus (s : State) : Host.Outcome State Fault Refusal := Host.Core.run Sys2Proof.core s.bus.length s

/-- The outcome of the last function started, as far as R283 gives one. -/
inductive FunctionOutcome where
  | done
  | error (k : ErrKind)
  | undetermined
  deriving DecidableEq, Repr

/-- R283: the outcome is read in DONE or ERROR, and is undetermined while a function is active. R283 states none for
IDLE: there no function was started, or it was abandoned. -/
def functionOutcome (s : State) : Option FunctionOutcome :=
  match s.mode with
  | .done => some .done
  | .error => s.err.map .error
  | .crc | .frame | .chunk | .stream => some .undetermined
  | .idle => none

end Sys2Proof.Machine
end

