-- ==== Sys2Proof/Certificates/Slice0/Obligations.lean ====
section
/-! DEFINITION. The statements for the provers, from the numbered rules of spec/. The registers' effects are written out
as the rules write them. Every result is the whole next state, so that it says too what stays as it was.

Three fields of the state are the model's own, not the block's: `bus`, `rdata` and `ignSeen` (log entries 2, 3 and 4). Where
a result names them, it says that the RDATA of a read is appended to the values read (R100, R283), and that the ghost mark of
R283 is set together with IGN; for the block itself the rules cited say all. -/

open Sys2Proof Sys2Proof.Machine

/-! ## The word, the decode, the step -/

/-- R70: `T = W<<40 | OFF<<32 | WDATA`, and the fields of T stand where the table of R70 says. -/
def Obligations.TransactionWordLayout : Prop :=
  ∀ (w : BitVec 1) (off : Offset) (v : Word),
    word w off v = w.setWidth 41 <<< 40 ||| off.setWidth 41 <<< 32 ||| v.setWidth 41
      ∧ (word w off v).extractLsb' 40 1 = w ∧ (word w off v).extractLsb' 32 8 = off
      ∧ (word w off v).extractLsb' 0 32 = v

/-- Words written out from the encodings of R74 and the listings of 95_test_vectors.md decode to the instructions they
stand for. -/
def Obligations.SampleWordsDecode : Prop :=
  decode 0x00000000000#41 = .rdId 0#32
    ∧ decode 0x00C00000000#41 = .rdStatus 0#32
    ∧ decode 0x10800000001#41 = .cmdCrcStart 0#28
    ∧ decode 0x108000000F1#41 = .cmdCrcStart 0xF#28
    ∧ decode 0x1080000000C#41 = .cmdReserved 0xC#4 0#28
    ∧ decode 0x11C31323334#41 = .wrDin32 0x31#8 0x32#8 0x33#8 0x34#8
    ∧ decode 0x11800000141#41 = .wrDin8 0x41#8 0x000001#24
    ∧ decode 0x12052755374#41 = .wrTag 0x52755374#32
    ∧ decode 0x13C52753574#41 = .wrTagchk 0x52753574#32
    ∧ decode 0x11900000041#41 = .wrMisalignedOdd 0x19#8 0x41#32
    ∧ decode 0x00E00000000#41 = .rdMisalignedEven 0x0E#8 0#32
    ∧ decode 0x18000000001#41 = .wrReserved 0x80#8 1#32
    ∧ decode 0x0FC00000000#41 = .rdReserved 0xFC#8 0#32

/-- R75: the procedure over the opcode table finds exactly one mnemonic for every word, that of the decoded instruction;
the fallback rows cover exactly the aligned offsets 0x44 to 0xFC, and the misaligned rows take every OFF with
OFF[1:0] != 00. -/
def Obligations.DecodeAgreesWithOpcodeTable : Prop :=
  ∀ t : Txn, tableMnemonics t = [(decode t).mnemonic]
    ∧ (tableRows.filter (fun r => r.applies t) = [] ↔
        t.getLsbD 32 = false ∧ t.getLsbD 33 = false ∧ 0x44#8 ≤ t.extractLsb' 32 8)
    ∧ ((decode t).mnemonic = "RD_MISALIGNED" ∨ (decode t).mnemonic = "WR_MISALIGNED" ↔
        t.getLsbD 32 = true ∨ t.getLsbD 33 = true)

/-- Encoding an instruction and decoding the word gives the instruction back, for every instruction and every operand the
encoding admits. -/
def Obligations.DecodeOfEncodeIsTheInstruction : Prop :=
  ∀ i : Instr, i.wellFormed = true → decode (encode i) = i

/-- The decode is total: every word decodes to a well-formed instruction, which encodes to that word again (R75). -/
def Obligations.EncodeOfDecodeIsTheWord : Prop :=
  ∀ t : Txn, (decode t).wellFormed = true ∧ encode (decode t) = t

/-- R100: the step decodes the transaction the bus delivers next and performs it; nothing else happens around it but that
the transaction is taken off the bus. -/
def Obligations.StepPerformsTheDecodedTransaction : Prop :=
  ∀ (s : State) (t : Txn) (rest : List BusEvent), s.bus = .transaction t :: rest →
    step s = exec (decode t) { s with bus := rest }

/-! ## Reads -/

/-- R105, R109, R104: ID and VERSION read their constants in every state; a read of a write-only register returns 0.
None of them changes anything. -/
def Obligations.ConstantsAndWriteOnlyRegistersRead : Prop :=
  ∀ (s : State) (x : Word),
    (decode (word 0#1 0x00#8 x) = .rdId x
      ∧ exec (.rdId x) s = .next { s with rdata := s.rdata ++ [0x504E4743#32] })
    ∧ (decode (word 0#1 0x04#8 x) = .rdVersion x
      ∧ exec (.rdVersion x) s = .next { s with rdata := s.rdata ++ [0x00010000#32] })
    ∧ (decode (word 0#1 0x08#8 x) = .rdCtrl x ∧ exec (.rdCtrl x) s = .next { s with rdata := s.rdata ++ [0#32] })
    ∧ (decode (word 0#1 0x18#8 x) = .rdDin8 x ∧ exec (.rdDin8 x) s = .next { s with rdata := s.rdata ++ [0#32] })
    ∧ (decode (word 0#1 0x1C#8 x) = .rdDin32 x ∧ exec (.rdDin32 x) s = .next { s with rdata := s.rdata ++ [0#32] })

/-- R106, with the field places and codes of R24: what a read of STATUS returns, field by field, reserved bits 0. -/
def Obligations.StatusReadsItsFields : Prop :=
  ∀ (s : State) (x : Word), decode (word 0#1 0x0C#8 x) = .rdStatus x ∧
    ∃ v : Word, exec (.rdStatus x) s = .next { s with rdata := s.rdata ++ [v] }
      ∧ v.extractLsb' 0 3 = (match s.mode with
          | .idle => 0#3 | .crc => 1#3 | .frame => 2#3 | .chunk => 3#3 | .stream => 4#3 | .done => 5#3 | .error => 6#3)
      ∧ v.getLsbD 3 = false
      ∧ v.extractLsb' 4 4 = (match s.err with
          | none => 0#4
          | some .invalidTagLength => 1#4 | some .invalidTagBytes => 2#4 | some .unexpectedEof => 3#4
          | some .checksumMismatch => 4#4 | some .badSignature => 5#4 | some .trailingBytes => 6#4
          | some .chunkNotFound => 7#4 | some .invalidUtf8 => 8#4 | some .lengthOverflow => 9#4)
      ∧ v.getLsbD 8 = s.ign ∧ v.getLsbD 9 = s.hdrv ∧ v.getLsbD 10 = !s.tag.getLsbD 29 ∧ v.getLsbD 11 = s.sigmatch
      ∧ v.extractLsb' 12 3 = (match s.phase with
          | .none => 0#3 | .sig => 1#3 | .len => 2#3 | .tag => 3#3 | .data => 4#3 | .crc => 5#3 | .bound => 6#3)
      ∧ v.getLsbD 15 = false ∧ v.extractLsb' 16 3 = s.fcnt ∧ v.extractLsb' 19 13 = 0#13

/-- R159, R160, R187, R188, R232 to R236, R136: each data register reads as the value it holds, CRC_VALUE as CRC_STATE
xor 0xFFFFFFFF. -/
def Obligations.DataRegistersReadTheirValues : Prop :=
  ∀ (s : State) (x : Word),
    (decode (word 0#1 0x10#8 x) = .rdCrcState x
      ∧ exec (.rdCrcState x) s = .next { s with rdata := s.rdata ++ [s.crcState] })
    ∧ (decode (word 0#1 0x14#8 x) = .rdCrcValue x
      ∧ exec (.rdCrcValue x) s = .next { s with rdata := s.rdata ++ [s.crcState ^^^ 0xFFFFFFFF#32] })
    ∧ (decode (word 0#1 0x20#8 x) = .rdTag x ∧ exec (.rdTag x) s = .next { s with rdata := s.rdata ++ [s.tag] })
    ∧ (decode (word 0#1 0x24#8 x) = .rdLen x ∧ exec (.rdLen x) s = .next { s with rdata := s.rdata ++ [s.len] })
    ∧ (decode (word 0#1 0x28#8 x) = .rdRxcrc x
      ∧ exec (.rdRxcrc x) s = .next { s with rdata := s.rdata ++ [s.rxcrc] })
    ∧ (decode (word 0#1 0x2C#8 x) = .rdRem x ∧ exec (.rdRem x) s = .next { s with rdata := s.rdata ++ [s.rem] })
    ∧ (decode (word 0#1 0x30#8 x) = .rdPos x ∧ exec (.rdPos x) s = .next { s with rdata := s.rdata ++ [s.pos] })
    ∧ (decode (word 0#1 0x34#8 x) = .rdChunks x
      ∧ exec (.rdChunks x) s = .next { s with rdata := s.rdata ++ [s.chunks] })
    ∧ (decode (word 0#1 0x38#8 x) = .rdCstart x
      ∧ exec (.rdCstart x) s = .next { s with rdata := s.rdata ++ [s.cstart] })
    ∧ (decode (word 0#1 0x3C#8 x) = .rdTagchk x
      ∧ exec (.rdTagchk x) s = .next { s with rdata := s.rdata ++ [s.tagchk] })

/-- R134, with R130 to R132: TAGRES reads the verdict on TAGCHK: VALID, CRIT and one LETTER bit a byte. -/
def Obligations.TagresReadsTheVerdict : Prop :=
  let letter : Byte → Prop := fun b => (0x41#8 ≤ b ∧ b ≤ 0x5A#8) ∨ (0x61#8 ≤ b ∧ b ≤ 0x7A#8)
  ∀ (s : State) (x : Word), decode (word 0#1 0x40#8 x) = .rdTagres x ∧
    ∃ v : Word, exec (.rdTagres x) s = .next { s with rdata := s.rdata ++ [v] }
      ∧ (v.getLsbD 0 = true ↔ letter (s.tagchk.extractLsb' 24 8) ∧ letter (s.tagchk.extractLsb' 16 8)
          ∧ letter (s.tagchk.extractLsb' 8 8) ∧ letter (s.tagchk.extractLsb' 0 8))
      ∧ (v.getLsbD 1 = true ↔ s.tagchk.getLsbD 29 = false)
      ∧ (v.getLsbD 2 = true ↔ letter (s.tagchk.extractLsb' 24 8))
      ∧ (v.getLsbD 3 = true ↔ letter (s.tagchk.extractLsb' 16 8))
      ∧ (v.getLsbD 4 = true ↔ letter (s.tagchk.extractLsb' 8 8))
      ∧ (v.getLsbD 5 = true ↔ letter (s.tagchk.extractLsb' 0 8))
      ∧ v.extractLsb' 6 26 = 0#26

/-- R110, R120: a read of a misaligned offset, and of an aligned reserved offset 0x44 to 0xFC, returns 0, changes nothing
and sets no IGN. -/
def Obligations.MisalignedAndReservedReadsGiveZero : Prop :=
  ∀ (s : State) (off : Offset) (x : Word),
    (off.getLsbD 0 = true → decode (word 0#1 off x) = .rdMisalignedOdd off x)
      ∧ (off.getLsbD 0 = false → off.getLsbD 1 = true → decode (word 0#1 off x) = .rdMisalignedEven off x)
      ∧ (off.getLsbD 0 = false → off.getLsbD 1 = false → 0x44#8 ≤ off → decode (word 0#1 off x) = .rdReserved off x)
      ∧ exec (.rdMisalignedOdd off x) s = .next { s with rdata := s.rdata ++ [0#32] }
      ∧ exec (.rdMisalignedEven off x) s = .next { s with rdata := s.rdata ++ [0#32] }
      ∧ exec (.rdReserved off x) s = .next { s with rdata := s.rdata ++ [0#32] }

/-- R57: no read has a side effect: a word with W = 0, at any offset, returns a value and changes nothing; read again, it
returns the same value. -/
def Obligations.ReadsHaveNoSideEffect : Prop :=
  ∀ (t : Txn) (s : State), t.getLsbD 40 = false →
    ∃ v : Word, exec (decode t) s = .next { s with rdata := s.rdata ++ [v] }
      ∧ exec (decode t) { s with rdata := s.rdata ++ [v] } = .next { s with rdata := s.rdata ++ [v] ++ [v] }

/-! ## Writes and commands -/

/-- R103: a write to any of the eleven read-only registers sets IGN and changes nothing else, whatever the value. The
ghost mark of R283 is set together with IGN. -/
def Obligations.WritesToReadOnlyRegistersAreIgnored : Prop :=
  ∀ (s : State) (v : Word),
    let t : State := { s with ign := true, ignSeen := true }
    (decode (word 1#1 0x00#8 v) = .wrId v ∧ exec (.wrId v) s = .next t)
      ∧ (decode (word 1#1 0x04#8 v) = .wrVersion v ∧ exec (.wrVersion v) s = .next t)
      ∧ (decode (word 1#1 0x0C#8 v) = .wrStatus v ∧ exec (.wrStatus v) s = .next t)
      ∧ (decode (word 1#1 0x14#8 v) = .wrCrcValue v ∧ exec (.wrCrcValue v) s = .next t)
      ∧ (decode (word 1#1 0x24#8 v) = .wrLen v ∧ exec (.wrLen v) s = .next t)
      ∧ (decode (word 1#1 0x28#8 v) = .wrRxcrc v ∧ exec (.wrRxcrc v) s = .next t)
      ∧ (decode (word 1#1 0x2C#8 v) = .wrRem v ∧ exec (.wrRem v) s = .next t)
      ∧ (decode (word 1#1 0x30#8 v) = .wrPos v ∧ exec (.wrPos v) s = .next t)
      ∧ (decode (word 1#1 0x34#8 v) = .wrChunks v ∧ exec (.wrChunks v) s = .next t)
      ∧ (decode (word 1#1 0x38#8 v) = .wrCstart v ∧ exec (.wrCstart v) s = .next t)
      ∧ (decode (word 1#1 0x40#8 v) = .wrTagres v ∧ exec (.wrTagres v) s = .next t)

/-- R107, R108, R116: a misaligned write, a write to an aligned reserved offset 0x44 to 0xFC and a reserved command 0x8
to 0xF set IGN and change nothing else. -/
def Obligations.MisalignedAndReservedWritesAreIgnored : Prop :=
  ∀ (s : State) (off : Offset) (v : Word) (c : BitVec 4) (g : BitVec 28),
    let t : State := { s with ign := true, ignSeen := true }
    (off.getLsbD 0 = true → decode (word 1#1 off v) = .wrMisalignedOdd off v)
      ∧ (off.getLsbD 0 = false → off.getLsbD 1 = true → decode (word 1#1 off v) = .wrMisalignedEven off v)
      ∧ (off.getLsbD 0 = false → off.getLsbD 1 = false → 0x44#8 ≤ off → decode (word 1#1 off v) = .wrReserved off v)
      ∧ (0x8#4 ≤ c → decode (word 1#1 0x08#8 (g ++ c)) = .cmdReserved c g)
      ∧ exec (.wrMisalignedOdd off v) s = .next t ∧ exec (.wrMisalignedEven off v) s = .next t
      ∧ exec (.wrReserved off v) s = .next t ∧ exec (.cmdReserved c g) s = .next t

/-- R135, R158, R186: WR_TAGCHK is accepted in every mode and changes TAGCHK only. WR_CRC_STATE replaces CRC_STATE, and
WR_TAG replaces TAG and clears HDRV, in IDLE, CRC, DONE and ERROR; in FRAME, CHUNK and STREAM both are ignored. -/
def Obligations.HostWritesByMode : Prop :=
  ∀ (s : State) (v : Word),
    (decode (word 1#1 0x3C#8 v) = .wrTagchk v ∧ exec (.wrTagchk v) s = .next { s with tagchk := v })
    ∧ (decode (word 1#1 0x10#8 v) = .wrCrcState v ∧ exec (.wrCrcState v) s = .next (match s.mode with
        | .idle | .crc | .done | .error => { s with crcState := v }
        | .frame | .chunk | .stream => { s with ign := true, ignSeen := true }))
    ∧ (decode (word 1#1 0x20#8 v) = .wrTag v ∧ exec (.wrTag v) s = .next (match s.mode with
        | .idle | .crc | .done | .error => { s with tag := v, hdrv := false }
        | .frame | .chunk | .stream => { s with ign := true, ignSeen := true }))

/-- R113, R115, R119: NOP does nothing; ABORT returns to IDLE from every mode, IGN and the data registers keep their
values; CLR_IGN clears IGN and changes nothing else, and no other transaction clears it. -/
def Obligations.NopAbortAndClrIgn : Prop :=
  ∀ (s : State) (g : BitVec 28),
    (decode (word 1#1 0x08#8 (g ++ 0x0#4)) = .cmdNop g ∧ exec (.cmdNop g) s = .next s)
    ∧ (decode (word 1#1 0x08#8 (g ++ 0x6#4)) = .cmdAbort g ∧ exec (.cmdAbort g) s =
        .next { s with mode := .idle, err := none, phase := .none, fcnt := 0#3, hdrv := false, sigmatch := true })
    ∧ (decode (word 1#1 0x08#8 (g ++ 0x7#4)) = .cmdClrIgn g ∧ exec (.cmdClrIgn g) s = .next { s with ign := false })
    ∧ (∀ (i : Instr) (t : State), exec i s = .next t → s.ign = true → t.ign = false → ∃ g' : BitVec 28, i = .cmdClrIgn g')

/-- R161: CRC_START seeds the engine and enters CRC mode from IDLE, DONE and ERROR, and is ignored in the active modes. -/
def Obligations.CrcStartSeedsTheEngine : Prop :=
  ∀ (s : State) (g : BitVec 28), decode (word 1#1 0x08#8 (g ++ 0x1#4)) = .cmdCrcStart g ∧
    exec (.cmdCrcStart g) s = .next (match s.mode with
      | .idle | .done | .error =>
        { s with
          crcState := 0xFFFFFFFF#32, pos := 0#32, err := none, phase := .none, fcnt := 0#3, hdrv := false, mode := .crc }
      | .crc | .frame | .chunk | .stream => { s with ign := true, ignSeen := true })

/-- R181: FRAME_START judges TAG; a valid tag seeds the checksum with its four bytes and enters FRAME mode, an invalid one
raises InvalidTagBytes. In the active modes it is ignored. -/
def Obligations.FrameStartJudgesTheTag : Prop :=
  ∀ (s : State) (g : BitVec 28), decode (word 1#1 0x08#8 (g ++ 0x2#4)) = .cmdFrameStart g ∧
    exec (.cmdFrameStart g) s = .next (match s.mode with
      | .idle | .done | .error =>
        if validTag s.tag then
          { s with
            err := none, phase := .none, fcnt := 0#3, hdrv := false, pos := 0#32, len := 0#32, mode := .frame,
            crcState := crcUpdate 0xFFFFFFFF#32
              [s.tag.extractLsb' 24 8, s.tag.extractLsb' 16 8, s.tag.extractLsb' 8 8, s.tag.extractLsb' 0 8] }
        else
          { s with
            err := some .invalidTagBytes, phase := .none, fcnt := 0#3, hdrv := false, pos := 0#32, len := 0#32,
            crcState := 0xFFFFFFFF#32, mode := .error }
      | .crc | .frame | .chunk | .stream => { s with ign := true, ignSeen := true })

/-- R201, R202: CHUNK_START and STREAM_START clear the chunk registers and enter their modes from IDLE, DONE and ERROR,
and are ignored in the active modes. -/
def Obligations.DeframeStartsClearTheChunk : Prop :=
  ∀ (s : State) (g : BitVec 28),
    let ignored : State := { s with ign := true, ignSeen := true }
    let cleared : State :=
      { s with
        err := none, fcnt := 0#3, hdrv := false, len := 0#32, tag := 0#32, rxcrc := 0#32, rem := 0#32, pos := 0#32,
        chunks := 0#32, cstart := 0#32, crcState := 0xFFFFFFFF#32 }
    decode (word 1#1 0x08#8 (g ++ 0x3#4)) = .cmdChunkStart g
      ∧ exec (.cmdChunkStart g) s = .next (match s.mode with
          | .idle | .done | .error => { cleared with phase := .len, mode := .chunk }
          | .crc | .frame | .chunk | .stream => ignored)
      ∧ decode (word 1#1 0x08#8 (g ++ 0x4#4)) = .cmdStreamStart g
      ∧ exec (.cmdStreamStart g) s = .next (match s.mode with
          | .idle | .done | .error => { cleared with sigmatch := true, phase := .sig, mode := .stream }
          | .crc | .frame | .chunk | .stream => ignored)

/-- R114, with R162, R184, R230 and R231: what END does in each mode; END is the only way from STREAM mode to DONE, and the
only way that TrailingBytes is raised. R231 has no case for PHASE = NONE in STREAM mode, which R47 excludes. -/
def Obligations.EndFinishesEachMode : Prop :=
  (∀ (s : State) (g : BitVec 28), (s.mode = .stream → s.phase ≠ .none) →
    decode (word 1#1 0x08#8 (g ++ 0x5#4)) = .cmdEnd g ∧
    exec (.cmdEnd g) s = .next (match s.mode with
      | .crc | .frame => { s with mode := .done }
      | .chunk => { s with mode := .error, err := some .unexpectedEof }
      | .stream => (match s.phase with
          | .sig => { s with mode := .error, err := some .badSignature }
          | .bound => { s with mode := .done }
          | .len | .tag => { s with mode := .error, err := some .trailingBytes }
          | .data | .crc => { s with mode := .error, err := some .unexpectedEof }
          | .none => s)
      | .idle | .done | .error => { s with ign := true, ignSeen := true }))
  ∧ ∀ (i : Instr) (s t : State), exec i s = .next t →
    (s.mode = .stream → t.mode = .done → ∃ g : BitVec 28, i = .cmdEnd g)
      ∧ (t.err = some .trailingBytes → s.err ≠ some .trailingBytes → ∃ g : BitVec 28, i = .cmdEnd g)

/-! ## Data input -/

/-- R111, R117, R157, R182, R183: a byte in CRC mode feeds the engine and is counted; in IDLE, DONE and ERROR it is lost
and sets IGN. A byte in FRAME mode is payload, counted in LEN and POS; the byte that would make LEN exceed 0xFFFFFFFF
raises LengthOverflow and changes nothing else. That POS = LEN in FRAME mode (R182) is a premise: `StepKeepsProgressInv`
states it as an invariant. WDATA[31:8] is ignored. -/
def Obligations.BytesInCrcAndFrameModeAndOutsideAFunction : Prop :=
  ∀ (s : State) (b : Byte) (g : BitVec 24),
    decode (word 1#1 0x18#8 (g ++ b)) = .wrDin8 b g
      ∧ (s.mode = .crc →
          exec (.wrDin8 b g) s = .next { s with crcState := crcByte s.crcState b, pos := s.pos + 1#32 })
      ∧ (s.mode = .frame → s.pos = s.len →
          exec (.wrDin8 b g) s = .next
            (if s.len = 0xFFFFFFFF#32 then { s with mode := .error, err := some .lengthOverflow }
             else { s with crcState := crcByte s.crcState b, len := s.len + 1#32, pos := s.pos + 1#32 }))
      ∧ (s.mode = .idle ∨ s.mode = .done ∨ s.mode = .error →
          exec (.wrDin8 b g) s = .next { s with ign := true, ignSeen := true })

/-- R211, with R210: a byte in the SIG phase, of STREAM mode only, is compared with the signature byte of its place; the
verdict comes at the eighth byte. -/
def Obligations.BytesInTheSigPhase : Prop :=
  ∀ (s : State) (b : Byte) (g : BitVec 24), s.mode = .stream → s.phase = .sig →
    let expected : Byte :=
      [0x89#8, 0x50#8, 0x4E#8, 0x47#8, 0x0D#8, 0x0A#8, 0x1A#8, 0x0A#8].getD s.fcnt.toNat 0#8
    let matched : Bool := s.sigmatch && decide (b = expected)
    exec (.wrDin8 b g) s = .next
      (if s.fcnt < 7#3 then { s with pos := s.pos + 1#32, sigmatch := matched, fcnt := s.fcnt + 1#3 }
       else if matched = true then { s with pos := s.pos + 1#32, sigmatch := matched, fcnt := 0#3, phase := .bound }
       else
        { s with
          pos := s.pos + 1#32, sigmatch := matched, fcnt := 0#3, mode := .error, err := some .badSignature })

/-- R213, R214: a byte that arrives at BOUND, in STREAM mode (R212), starts a chunk at its offset, clears the chunk's registers, reseeds the
engine and is the first length byte; a byte in the LEN phase is shifted into LEN; after the fourth the phase is TAG. Four
bytes from the start of the phase give LEN most significant first. -/
def Obligations.BytesAtBoundAndInTheLenPhase : Prop :=
  ∀ (s : State) (b : Byte) (g : BitVec 24), s.mode = .chunk ∨ s.mode = .stream →
    (s.mode = .stream → s.phase = .bound →
      exec (.wrDin8 b g) s = .next
        { s with
          pos := s.pos + 1#32, cstart := s.pos, len := b.setWidth 32, tag := 0#32, rxcrc := 0#32, rem := 0#32,
          hdrv := false, crcState := 0xFFFFFFFF#32, phase := .len, fcnt := 1#3 })
    ∧ (s.phase = .len →
      exec (.wrDin8 b g) s = .next
        (if s.fcnt < 3#3 then
          { s with pos := s.pos + 1#32, len := s.len <<< 8 ||| b.setWidth 32, fcnt := s.fcnt + 1#3 }
         else
          { s with pos := s.pos + 1#32, len := s.len <<< 8 ||| b.setWidth 32, fcnt := 0#3, phase := .tag }))
    ∧ (s.phase = .len → s.fcnt = 0#3 → ∀ l0 l1 l2 l3 : Byte, ∃ t : State,
      exec (.wrDin32 l0 l1 l2 l3) s = .next t ∧ t.len = l0 ++ l1 ++ l2 ++ l3 ∧ t.phase = .tag ∧ t.mode = s.mode)

/-- R215, R217: a byte in the TAG phase is shifted into TAG and fed to the engine; at the fourth byte the whole tag is
judged: an invalid one raises InvalidTagBytes, a valid one sets HDRV and REM and leads to DATA, or to CRC where LEN is 0.
HDRV is 0 in the TAG phase, so it is 0 after the error; `StepKeepsStatusInv` states the invariant this rests on. Four bytes
from the start of the phase give TAG the first byte in bits 31:24. -/
def Obligations.BytesInTheTagPhase : Prop :=
  ∀ (s : State) (b : Byte) (g : BitVec 24), s.mode = .chunk ∨ s.mode = .stream → s.phase = .tag →
    let tag' : Word := s.tag <<< 8 ||| b.setWidth 32
    let taken : State := { s with pos := s.pos + 1#32, tag := tag', crcState := crcByte s.crcState b }
    exec (.wrDin8 b g) s = .next
      (if s.fcnt < 3#3 then { taken with fcnt := s.fcnt + 1#3 }
       else if validTag tag' = true then
        { taken with fcnt := 0#3, hdrv := true, rem := s.len, phase := if s.len = 0#32 then .crc else .data }
       else { taken with fcnt := 0#3, mode := .error, err := some .invalidTagBytes })
    ∧ (StatusInv s → s.hdrv = false)
    ∧ (s.fcnt = 0#3 → ∀ t0 t1 t2 t3 : Byte, ∃ t : State,
      exec (.wrDin32 t0 t1 t2 t3) s = .next t ∧ t.tag = t0 ++ t1 ++ t2 ++ t3)

/-- R216: a byte in the DATA phase is fed to the engine and REM counts down; when it reaches 0 the phase is CRC. That REM
is at least 1 in DATA (R47) is a premise: `StepKeepsStatusInv` states it as an invariant. -/
def Obligations.BytesInTheDataPhase : Prop :=
  ∀ (s : State) (b : Byte) (g : BitVec 24), s.mode = .chunk ∨ s.mode = .stream → s.phase = .data → 1#32 ≤ s.rem →
    exec (.wrDin8 b g) s = .next
      { s with
        pos := s.pos + 1#32, crcState := crcByte s.crcState b, rem := s.rem - 1#32,
        phase := if s.rem - 1#32 = 0#32 then .crc else .data }

/-- R218 to R222: a byte in the CRC phase is shifted into RXCRC and not fed to the engine; at the fourth byte RXCRC is
compared with CRC_STATE xor 0xFFFFFFFF: a match counts the chunk and leads to BOUND, in CHUNK mode to DONE; a mismatch
raises ChecksumMismatch. HDRV is 1 in the CRC phase, so it stays 1; `StepKeepsProgressInv` states the invariant this rests
on. Four bytes from the start of the phase give RXCRC most significant first. -/
def Obligations.BytesInTheCrcPhase : Prop :=
  ∀ (s : State) (b : Byte) (g : BitVec 24), s.mode = .chunk ∨ s.mode = .stream → s.phase = .crc →
    let rxcrc' : Word := s.rxcrc <<< 8 ||| b.setWidth 32
    let taken : State := { s with pos := s.pos + 1#32, rxcrc := rxcrc' }
    exec (.wrDin8 b g) s = .next
      (if s.fcnt < 3#3 then { taken with fcnt := s.fcnt + 1#3 }
       else if rxcrc' = s.crcState ^^^ 0xFFFFFFFF#32 then
        { taken with
          fcnt := 0#3, chunks := s.chunks + 1#32, phase := .bound, mode := if s.mode = .chunk then .done else .stream }
       else { taken with fcnt := 0#3, mode := .error, err := some .checksumMismatch })
    ∧ (ProgressInv s → s.hdrv = true)
    ∧ (s.fcnt = 0#3 → ∀ x0 x1 x2 x3 : Byte, ∃ t : State,
      exec (.wrDin32 x0 x1 x2 x3) s = .next t ∧ t.rxcrc = x0 ++ x1 ++ x2 ++ x3)

/-- R118, R78: WR_DIN32 has the effect of four WR_DIN8 of its bytes, the first in WDATA[31:24], one after another. The bytes
after one that raises an error or ends a CHUNK-mode chunk are ignored accesses, so at most one error is raised. -/
def Obligations.Din32IsFourDin8 : Prop :=
  ∀ (s : State) (v : Word) (g : BitVec 24), ∃ a b c d : Byte, ∃ s1 s2 s3 s4 : State,
    a = v.extractLsb' 24 8 ∧ b = v.extractLsb' 16 8 ∧ c = v.extractLsb' 8 8 ∧ d = v.extractLsb' 0 8
      ∧ decode (word 1#1 0x1C#8 v) = .wrDin32 a b c d
      ∧ exec (.wrDin8 a g) s = .next s1 ∧ exec (.wrDin8 b g) s1 = .next s2 ∧ exec (.wrDin8 c g) s2 = .next s3
      ∧ exec (.wrDin8 d g) s3 = .next s4 ∧ exec (.wrDin32 a b c d) s = .next s4
      ∧ (s1.mode = .error ∨ s1.mode = .done → s4 = { s1 with ign := true, ignSeen := true })
      ∧ (s2.mode = .error ∨ s2.mode = .done → s4 = { s2 with ign := true, ignSeen := true })
      ∧ (s3.mode = .error ∨ s3.mode = .done → s4 = { s3 with ign := true, ignSeen := true })

/-- What the model does in states no run reaches (R47, R182). The model's choice, log entry 6. With PHASE = NONE a byte in
CHUNK and STREAM mode is only counted, and END in STREAM mode changes nothing, since R203 and R231 have no case for it.
REM = 0 in DATA, and POS = 0xFFFFFFFF with a smaller LEN in FRAME mode, wrap. In CHUNK mode at SIG and at BOUND, phases of
STREAM mode only (R211, R212), a byte does what it does in STREAM mode, the mode left CHUNK unless an error is raised. -/
def Obligations.UnreachedStatesFollowThePseudocode : Prop :=
  ∀ (s : State) (b : Byte) (g : BitVec 24) (g' : BitVec 28),
    (s.phase = .none → s.mode = .chunk ∨ s.mode = .stream →
      exec (.wrDin8 b g) s = .next { s with pos := s.pos + 1#32 })
    ∧ (s.phase = .none → s.mode = .stream → exec (.cmdEnd g') s = .next s)
    ∧ (s.phase = .data → s.rem = 0#32 → s.mode = .chunk ∨ s.mode = .stream →
      exec (.wrDin8 b g) s = .next
        { s with pos := s.pos + 1#32, crcState := crcByte s.crcState b, rem := 0xFFFFFFFF#32 })
    ∧ (s.mode = .frame → s.pos = 0xFFFFFFFF#32 → s.len ≠ 0xFFFFFFFF#32 →
      exec (.wrDin8 b g) s = .next
        { s with pos := 0#32, crcState := crcByte s.crcState b, len := s.len + 1#32 })
    ∧ (s.mode = .chunk → s.phase = .sig ∨ s.phase = .bound → ∃ t : State,
      exec (.wrDin8 b g) { s with mode := .stream } = .next t
        ∧ exec (.wrDin8 b g) s = .next { t with mode := if t.mode = .error then .error else .chunk })

/-! ## Rules over all transactions -/

/-- R101: the acceptance table. A transaction the table calls ignored changes nothing but that it sets IGN (R102); one it
calls accepted does not set IGN (but for the later bytes of a WR_DIN32, which meet the mode anew, R111). -/
def Obligations.AcceptanceTable : Prop :=
  ∀ (i : Instr) (s : State),
    (accepted s.mode i = false → exec i s = .next { s with ign := true, ignSeen := true })
      ∧ (accepted s.mode i = true → (∀ a b c d : Byte, i ≠ .wrDin32 a b c d) →
          ∃ t : State, exec i s = .next t ∧ (t.ign = true → s.ign = true))

/-- R100, R102, R119: every transaction completes in a next state, in every state, and the bus holds afterwards what it
held. IGN, once set, is cleared by no transaction but CLR_IGN; the ghost mark of R283 is cleared by none and is set
whenever IGN is. -/
def Obligations.EveryTransactionCompletesAndIgnIsSticky : Prop :=
  ∀ (i : Instr) (s : State), ∃ t : State, exec i s = .next t ∧ t.bus = s.bus
    ∧ (s.ign = true → (∀ g : BitVec 28, i ≠ .cmdClrIgn g) → t.ign = true)
    ∧ (s.ignSeen = true → t.ignSeen = true)
    ∧ (s.ign = false → t.ign = true → t.ignSeen = true)

/-- R76: the bits of WDATA that a format ignores play no part: WDATA of a read, WDATA[31:4] of a command, WDATA[31:8] of
a DIN8 write. -/
def Obligations.IgnoredBitsPlayNoPart : Prop :=
  ∀ (s : State) (off : Offset) (v v' : Word),
    exec (decode (word 0#1 off v)) s = exec (decode (word 0#1 off v')) s
      ∧ (v.extractLsb' 0 4 = v'.extractLsb' 0 4 →
          exec (decode (word 1#1 0x08#8 v)) s = exec (decode (word 1#1 0x08#8 v')) s)
      ∧ (v.extractLsb' 0 8 = v'.extractLsb' 0 8 →
          exec (decode (word 1#1 0x18#8 v)) s = exec (decode (word 1#1 0x18#8 v')) s)

/-- R300, R308: which transaction raises which error kind, in which mode and in which phase: for END the phase it meets, for a
byte the phase that ends with the byte (its field complete, FCNT = 0), which the error leaves; for LengthOverflow LEN =
0xFFFFFFFF. The kinds 1, 7 and 8 are raised by none. That BadSignature by a byte comes in STREAM mode only has R47's
invariant as its premise: CHUNK mode is never in the SIG phase. -/
def Obligations.ErrorsAreRaisedWhereTheTableSays : Prop :=
  ∀ (i : Instr) (s t : State) (k : ErrKind), exec i s = .next t → t.err = some k → s.err ≠ some k →
    let din : Prop := (∃ b g, i = .wrDin8 b g) ∨ ∃ a b c d, i = .wrDin32 a b c d
    let ends : Prop := ∃ g, i = .cmdEnd g
    match k with
    | .invalidTagBytes =>
      ((∃ g, i = .cmdFrameStart g) ∧ startable s.mode = true ∧ validTag s.tag = false ∧ t.phase = .none)
        ∨ (din ∧ (s.mode = .chunk ∨ s.mode = .stream) ∧ t.phase = .tag ∧ t.fcnt = 0#3)
    | .unexpectedEof => ends ∧ (s.mode = .chunk ∨ (s.mode = .stream ∧ (s.phase = .data ∨ s.phase = .crc)))
    | .checksumMismatch => din ∧ (s.mode = .chunk ∨ s.mode = .stream) ∧ t.phase = .crc ∧ t.fcnt = 0#3
    | .badSignature =>
      (din ∧ (s.mode = .chunk ∨ s.mode = .stream) ∧ (StatusInv s → s.mode = .stream) ∧ t.phase = .sig ∧ t.fcnt = 0#3)
        ∨ (ends ∧ s.mode = .stream ∧ s.phase = .sig)
    | .trailingBytes => ends ∧ s.mode = .stream ∧ (s.phase = .len ∨ s.phase = .tag)
    | .lengthOverflow => din ∧ s.mode = .frame ∧ t.len = 0xFFFFFFFF#32
    | .invalidTagLength | .chunkNotFound | .invalidUtf8 => False

/-- R312, R313: in ERROR every transaction but a start command and ABORT keeps the error and its record; TAG and HDRV
change by WR_TAG only, CRC_STATE by WR_CRC_STATE only. -/
def Obligations.ErrorModeKeepsTheError : Prop :=
  ∀ (i : Instr) (s : State), s.mode = .error →
    (∀ g : BitVec 28, i ≠ .cmdCrcStart g ∧ i ≠ .cmdFrameStart g ∧ i ≠ .cmdChunkStart g ∧ i ≠ .cmdStreamStart g
      ∧ i ≠ .cmdAbort g) →
    ∃ t : State, exec i s = .next t
      ∧ t.mode = .error ∧ t.err = s.err ∧ t.phase = s.phase ∧ t.fcnt = s.fcnt ∧ t.sigmatch = s.sigmatch
      ∧ t.len = s.len ∧ t.rxcrc = s.rxcrc ∧ t.rem = s.rem ∧ t.pos = s.pos ∧ t.chunks = s.chunks ∧ t.cstart = s.cstart
      ∧ ((∀ v : Word, i ≠ .wrTag v) → t.tag = s.tag ∧ t.hdrv = s.hdrv)
      ∧ ((∀ v : Word, i ≠ .wrCrcState v) → t.crcState = s.crcState)

/-- R36, R41, R20 and the rules of the other registers: which transactions may change which register. -/
def Obligations.RegistersAreWrittenOnlyBy : Prop :=
  ∀ (i : Instr) (s t : State), exec i s = .next t →
    let din : Prop := (∃ b g, i = .wrDin8 b g) ∨ ∃ a b c d, i = .wrDin32 a b c d
    let deframing : Prop := s.mode = .chunk ∨ s.mode = .stream
    let deframeStart : Prop := ∃ g, i = .cmdChunkStart g ∨ i = .cmdStreamStart g
    (t.tagchk ≠ s.tagchk → ∃ v, i = .wrTagchk v)
      ∧ (t.rxcrc ≠ s.rxcrc ∨ t.rem ≠ s.rem ∨ t.chunks ≠ s.chunks ∨ t.cstart ≠ s.cstart →
          deframeStart ∨ (din ∧ deframing))
      ∧ (t.tag ≠ s.tag → (∃ v, i = .wrTag v) ∨ deframeStart ∨ (din ∧ deframing))
      ∧ (t.len ≠ s.len → (∃ g, i = .cmdFrameStart g) ∨ deframeStart ∨ (din ∧ (deframing ∨ s.mode = .frame)))
      ∧ (t.pos ≠ s.pos →
          (∃ g, i = .cmdCrcStart g) ∨ (∃ g, i = .cmdFrameStart g) ∨ deframeStart
            ∨ (din ∧ (deframing ∨ s.mode = .frame ∨ s.mode = .crc)))
      ∧ (t.crcState ≠ s.crcState →
          (∃ v, i = .wrCrcState v) ∨ (∃ g, i = .cmdCrcStart g) ∨ (∃ g, i = .cmdFrameStart g) ∨ deframeStart
            ∨ (din ∧ (deframing ∨ s.mode = .frame ∨ s.mode = .crc)))

/-! ## Reset, the platform and a run -/

/-- R46: the reset values, and what STATUS, CRC_VALUE and TAGRES read after reset. That the bus is empty and nothing has
been read are the model's own fields (log entries 2 and 3) and are not stated here. -/
def Obligations.ResetValues : Prop :=
  let s := State.reset
  s.mode = .idle ∧ s.err = none ∧ s.ign = false ∧ s.hdrv = false ∧ s.sigmatch = true ∧ s.phase = .none ∧ s.fcnt = 0#3
    ∧ s.crcState = 0xFFFFFFFF#32 ∧ s.tag = 0#32 ∧ s.len = 0#32 ∧ s.rxcrc = 0#32 ∧ s.rem = 0#32 ∧ s.pos = 0#32
    ∧ s.chunks = 0#32 ∧ s.cstart = 0#32 ∧ s.tagchk = 0#32
    ∧ exec (.rdStatus 0#32) s = .next { s with rdata := s.rdata ++ [0x00000C00#32] }
    ∧ exec (.rdCrcValue 0#32) s = .next { s with rdata := s.rdata ++ [0x00000000#32] }
    ∧ exec (.rdTagres 0#32) s = .next { s with rdata := s.rdata ++ [0x00000002#32] }

/-- R330: a reset event between two transactions sets every element of the block's state to its reset value and keeps
none from before. What the bus still delivers, the values read and the ghost mark are no block state. -/
def Obligations.ResetEventGivesTheResetState : Prop :=
  ∀ (s : State) (rest : List BusEvent), s.bus = .platform .reset :: rest →
    step s = .next { State.reset with bus := rest, rdata := s.rdata, ignSeen := s.ignSeen }

/-- R331: ABORT, CHUNK_START, ABORT, a write of 0 to TAGCHK and CLR_IGN lead from every state to the reset state. -/
def Obligations.SoftResetSequence : Prop :=
  ∀ s : State, ∃ s1 s2 s3 s4 s5 : State,
    exec (.cmdAbort 0#28) s = .next s1 ∧ exec (.cmdChunkStart 0#28) s1 = .next s2
      ∧ exec (.cmdAbort 0#28) s2 = .next s3 ∧ exec (.wrTagchk 0#32) s3 = .next s4
      ∧ exec (.cmdClrIgn 0#28) s4 = .next s5
      ∧ s5 = { State.reset with bus := s.bus, rdata := s.rdata, ignSeen := s.ignSeen }

/-- R14, R325, R340, R55 and I6, I9, I10, I11: an empty bus and a wait state change nothing; a stalled bus stops the run;
a narrow access, a second master's and a disordered access are refused by name. -/
def Obligations.PlatformEventsAroundTheBlock : Prop :=
  ∀ (s : State) (rest : List BusEvent),
    step { s with bus := [] } = .next { s with bus := [] }
      ∧ step { s with bus := .platform .waitState :: rest } = .next { s with bus := rest }
      ∧ step { s with bus := .platform .stall :: rest } = .fault .busStalled
      ∧ step { s with bus := .platform .narrowAccess :: rest } = .refused .narrowAccess
      ∧ step { s with bus := .platform .secondMaster :: rest } = .refused .secondMaster
      ∧ step { s with bus := .platform .disorderedAccess :: rest } = .refused .disorderedAccess

/-- R283, R284, R100, R340: under SingleMaster, DeviceOrdered and a bus that completes every transaction, the run of
everything the bus delivers ends in a state. Wait states are invisible: the run with all of them taken out ends in the
same outcome. -/
def Obligations.RunsEndAndWaitStatesAreInvisible : Prop :=
  ∀ s : State,
    (SingleMaster s → DeviceOrdered s → BusCompletes s → ∃ t : State, runBus s = .next t ∧ t.bus = [])
      ∧ runBus { s with bus := s.bus.filter (fun e => e != .platform .waitState) } = runBus s

/-- R283, R61: a host program run over the bus is the host issuing its transactions one after another. -/
def Obligations.RunOfTransactionsIsIssue : Prop :=
  ∀ (p : List Txn) (s : State), ∃ t : State,
    issue p s = some t ∧ runBus { s with bus := p.map .transaction } = .next { t with bus := [] }

/-- R50, R59, R70: the window is the 256 platform addresses from BASE on, whatever BASE is: BASE + OFF selects OFF, and within
the window only that address does. What an address outside selects, if anything, is the platform's (its aliases), whatever it
is. -/
def Obligations.WindowAddresses : Prop :=
  ∀ (off : Offset) (a : Nat), platformAddress off = Config.base + off.toNat
    ∧ offsetOfAddress (platformAddress off) = some off
    ∧ (Config.base ≤ a → a < Config.base + 256 → (offsetOfAddress a = some off ↔ a = platformAddress off))
    ∧ (a < Config.base ∨ Config.base + 256 ≤ a → offsetOfAddress a = Config.aliasOffset a)

/-! ## Invariants -/

/-- The reset state meets the invariants of R47 and the progress invariant. -/
def Obligations.ResetMeetsTheInvariants : Prop := StatusInv State.reset ∧ ProgressInv State.reset

/-- R47: every step, from every state that meets the invariants, ends in one that meets them. -/
def Obligations.StepKeepsStatusInv : Prop :=
  ∀ s t : State, StatusInv s → step s = .next t → StatusInv t

/-- Every step, from every state that meets R47's invariants and the progress invariant, ends in one that meets the
progress invariant: POS against CSTART in every phase, POS = LEN in FRAME, and the offsets an error leaves. -/
def Obligations.StepKeepsProgressInv : Prop :=
  ∀ s t : State, StatusInv s → ProgressInv s → step s = .next t → ProgressInv t

/-! ## The CRC engine -/

/-- R156: composition, the empty input, and the table form of crc_byte with T[i] = crc_byte(0, i). -/
def Obligations.CrcComposesAndHasTheTableForm : Prop :=
  (∀ (s : Word) (a b : List Byte), crcUpdate s (a ++ b) = crcUpdate (crcUpdate s a) b)
    ∧ crc32 [] = 0x00000000#32
    ∧ ∀ (s : Word) (b : Byte), crcByte s b = (s >>> 8) ^^^ crcByte 0#32 ((s ^^^ b.setWidth 32).setWidth 8)

/-- R156: changing one byte of a sequence changes crc_update of the whole sequence. -/
def Obligations.CrcDetectsOneChangedByte : Prop :=
  ∀ (s : Word) (p q : List Byte) (b b' : Byte), b ≠ b' → crcUpdate s (p ++ b :: q) ≠ crcUpdate s (p ++ b' :: q)

/-! ## Byte sequences through the block -/

/-- R80: `pushb` of a byte sequence has the effect of one byte at a time, in every case. -/
def Obligations.PushbDeliversEveryByte : Prop :=
  ∀ (bytes : List Byte) (s : State), issue (asmPushb bytes) s = some (pushAll bytes s)

/-- R190: the framer's laws, for a valid tag and a payload of fewer than 2^32 bytes, run as in R189. -/
def Obligations.FramerLaws : Prop :=
  ∀ (s : State) (t : Word) (d : List Byte), Startable s → validTag t = true → d.length < 2 ^ 32 →
    ∃ r : State, issue (asmWr (.reg .tag) t :: asmCmd .frameStart :: (asmPushb d ++ [asmCmd .endInput])) s = some r
      ∧ r.mode = .done ∧ r.err = none ∧ r.len.toNat = d.length ∧ r.tag = t
      ∧ r.crcState ^^^ 0xFFFFFFFF#32 = crc32 (be32 t ++ d) ∧ r.ign = s.ign

/-- R238: CHUNK mode computes Chunk::parse: the outcome over a byte sequence is that of the first field that fails, with
the error's offset in POS (modulo 2^32). -/
def Obligations.ChunkModeComputesChunkParse : Prop :=
  ∀ (s : State) (bytes : List Byte), Startable s → ∃ s' r : State,
    issue (asmCmd .chunkStart :: asmPushb bytes) s = some s'
      ∧ (if s'.mode = .chunk then issue [asmCmd .endInput] s' = some r else r = s')
      ∧ (match parseChunk bytes with
        | .ok (c, _) =>
          r.mode = .done ∧ r.err = none ∧ r.len = c.length ∧ r.tag = c.tag ∧ r.rxcrc = c.checksum ∧ r.chunks = 1#32
            ∧ c.data = (bytes.drop 8).take c.length.toNat
        | .error k => r.mode = .error ∧ r.err = some k
            ∧ (k = .invalidTagBytes → r.pos = 8#32) ∧ (k = .checksumMismatch → r.pos = 12#32 + r.len))

/-- R239: STREAM mode computes the framing of Container::parse: the error kind and the offset of the failing chunk, or
DONE with the number of chunks. -/
def Obligations.StreamModeComputesContainerFraming : Prop :=
  ∀ (s : State) (bytes : List Byte), Startable s → ∃ r : State,
    issue (asmCmd .streamStart :: (asmPushb bytes ++ [asmCmd .endInput])) s = some r
      ∧ r.chunks = BitVec.ofNat 32 (frameStream bytes).chunks.length
      ∧ (match (frameStream bytes).failure with
        | none => r.mode = .done ∧ r.err = none
        | some (k, off) => r.mode = .error ∧ r.err = some k ∧ r.cstart = BitVec.ofNat 32 off)

/-- R240: feeding a frame in CHUNK mode ends in DONE with its fields, no access ignored. -/
def Obligations.FrameRoundTrip : Prop :=
  ∀ (s : State) (t : Word) (d : List Byte), Startable s → validTag t = true → d.length < 2 ^ 32 →
    ∃ r : State, issue (asmCmd .chunkStart :: asmPushb (frame t d)) s = some r
      ∧ r.mode = .done ∧ r.err = none ∧ r.tag = t ∧ r.len.toNat = d.length ∧ r.rxcrc = crc32 (be32 t ++ d)
      ∧ r.ign = s.ign ∧ d = ((frame t d).drop 8).take r.len.toNat

/-- R240: feeding the signature and any number of frames in STREAM mode, then END, ends in DONE with that many chunks. -/
def Obligations.StreamOfFramesRoundTrip : Prop :=
  ∀ (s : State) (fs : List (Word × List Byte)), Startable s →
    (∀ f ∈ fs, validTag f.1 = true ∧ f.2.length < 2 ^ 32) →
    ∃ r : State, issue (asmCmd .streamStart
        :: (asmPushb (signature ++ fs.flatMap (fun f => frame f.1 f.2)) ++ [asmCmd .endInput])) s = some r
      ∧ r.mode = .done ∧ r.err = none ∧ r.chunks = BitVec.ofNat 32 fs.length ∧ r.ign = s.ign

/-- R240, R156: a frame in which one payload byte is changed, the stored checksum left, raises ChecksumMismatch. -/
def Obligations.ChangedPayloadByteIsDetected : Prop :=
  ∀ (s : State) (t : Word) (p q : List Byte) (b b' : Byte), Startable s → validTag t = true →
    (p ++ b :: q).length < 2 ^ 32 → b ≠ b' →
    ∃ r : State, issue (asmCmd .chunkStart :: asmPushb
        (be32 (BitVec.ofNat 32 (p ++ b :: q).length) ++ be32 t ++ (p ++ b' :: q)
          ++ be32 (crc32 (be32 t ++ (p ++ b :: q))))) s = some r
      ∧ r.mode = .error ∧ r.err = some .checksumMismatch

/-! ## Host reference semantics -/

/-- R253, R254: Chunk::new by the framer makes the record of the payload, its length and its checksum; a record the host
may make serializes to the frame of its tag and payload. -/
def Obligations.HostChunkNewAndSerialize : Prop :=
  (∀ (s : State) (t : Word) (d : List Byte), Startable s → validTag t = true → d.length < 2 ^ 32 →
    ∃ r : State, hostChunkNew t d s =
      some (.ok ⟨BitVec.ofNat 32 d.length, t, d, crc32 (be32 t ++ d)⟩, r))
  ∧ ∀ c : Record, c.valid → serialize c = frame c.tag c.data

/-- R255: the host's Chunk::parse over the block is the parse of R238. -/
def Obligations.HostParseChunkIsChunkParse : Prop :=
  ∀ (s : State) (bytes : List Byte), Startable s → ∃ r : State,
    match parseChunk bytes with
    | .ok (c, _) => hostParseChunk bytes s = some (.ok c, r)
    | .error k => ∃ f : Failure, f.kind = k ∧ hostParseChunk bytes s = some (.error f, r)

/-- R256, R261: a container parsed from a buffer has as many records as the block counted, every record is valid, and
as_bytes gives the buffer back byte for byte. -/
def Obligations.ParsedContainerReproducesTheBuffer : Prop :=
  ∀ (s r : State) (bytes : List Byte) (p : Container), Startable s → hostParseContainer bytes s = some (.ok p, r) →
    asBytes p = bytes ∧ (∀ c ∈ p, c.valid) ∧ r.chunks = BitVec.ofNat 32 p.length

/-- R265, R261: the bytes of a container of valid records parse back to that container. -/
def Obligations.ContainerRoundTrip : Prop :=
  ∀ (s : State) (p : Container), Startable s → (∀ c ∈ p, c.valid) →
    ∃ r : State, hostParseContainer (asBytes p) s = some (.ok p, r)

/-- R265, with R258, R259 and R260: appending a record and removing its tag gives the record back and leaves the container
as it was, where no earlier record has that tag. For a tag absent from the list, the lookup is empty and the removal fails
with ChunkNotFound; for a tag present, both find the first record that has it. -/
def Obligations.AppendLookupAndRemove : Prop :=
  (∀ (p : Container) (c : Record), (∀ e ∈ p, tagString e.tag ≠ tagString c.tag) →
    removeChunk (appendChunk p c) (tagString c.tag) = .ok (c, p))
  ∧ ∀ (p : Container) (x : List Char),
    ((∀ e ∈ p, tagString e.tag ≠ x) → chunkByType p x = none ∧ removeChunk p x = .error .chunkNotFound)
      ∧ (∀ (a b : Container) (c : Record), p = a ++ c :: b → (∀ e ∈ a, tagString e.tag ≠ x) → tagString c.tag = x →
          chunkByType p x = some c ∧ removeChunk p x = .ok (c, a ++ b))

/-- R133: the byte-wise order of tags, first byte most significant, is the unsigned order of the words, and equal tags are
equal words. -/
def Obligations.TagOrderIsByteWise : Prop :=
  ∀ a b : Word,
    (a = b ↔ ∀ i < 4, wireByte a i = wireByte b i)
      ∧ (tagLe a b = true ↔
          a = b ∨ ∃ i < 4, (∀ j < i, wireByte a j = wireByte b j) ∧ wireByte a i < wireByte b i)

/-- R252: from_string accepts exactly the texts of four ASCII letters and gives the word of their codes, whose string form
is the text; a text of another length fails with InvalidTagLength, one of four characters that are not all letters with
InvalidTagBytes. -/
def Obligations.FromStringAcceptsFourLetters : Prop :=
  ∀ x : List Char,
    (x.length ≠ 4 → fromString x = .error .invalidTagLength)
      ∧ (∀ c0 c1 c2 c3 : Char, x = [c0, c1, c2, c3] →
          let letters : Bool := x.all (fun c =>
            (decide (0x41 ≤ c.toNat) && decide (c.toNat ≤ 0x5A)) || (decide (0x61 ≤ c.toNat) && decide (c.toNat ≤ 0x7A)))
          let t : Word := BitVec.ofNat 32 c0.toNat <<< 24 ||| BitVec.ofNat 32 c1.toNat <<< 16
            ||| BitVec.ofNat 32 c2.toNat <<< 8 ||| BitVec.ofNat 32 c3.toNat
          (letters = false → fromString x = .error .invalidTagBytes)
            ∧ (letters = true → fromString x = .ok t ∧ validTag t = true ∧ tagString t = x))
end

