-- ==== Sys2Proof/Laws/Crc.lean ====
section
/-! SUPPORT. The CRC shift is linear over xor and loses nothing (42_crc.md R154, R156). -/

namespace Sys2Proof.Machine

theorem crcShift_xor (a b : Word) : crcShift (a ^^^ b) = crcShift a ^^^ crcShift b := by
  simp only [crcShift, BitVec.getLsbD_xor]
  rw [BitVec.ushiftRight_xor_distrib]
  generalize a >>> 1 = x, b >>> 1 = y
  cases a.getLsbD 0 <;> cases b.getLsbD 0
  · rfl
  · exact BitVec.xor_assoc x y crcPoly
  · show x ^^^ y ^^^ crcPoly = x ^^^ crcPoly ^^^ y
    rw [BitVec.xor_assoc, BitVec.xor_assoc, BitVec.xor_comm y]
  · show x ^^^ y = x ^^^ crcPoly ^^^ (y ^^^ crcPoly)
    rw [BitVec.xor_assoc, BitVec.xor_comm y, ← BitVec.xor_assoc crcPoly, BitVec.xor_self, BitVec.zero_xor]

/-- The bit shifted out can be read off the top bit, since bit 31 of POLY is 1. -/
theorem crcShift_bit31 (a : Word) : (crcShift a).getLsbD 31 = a.getLsbD 0 := by
  have poly : crcPoly.getLsbD 31 = true := by decide
  unfold crcShift
  split
  · rename_i h
    rw [BitVec.getLsbD_xor, poly, h, BitVec.getLsbD_ushiftRight, BitVec.getLsbD_of_ge _ _ (by decide)]
    rfl
  · rename_i h
    rw [BitVec.getLsbD_ushiftRight, BitVec.getLsbD_of_ge _ _ (by decide)]
    simpa using h

theorem crcShift_injective {a b : Word} (h : crcShift a = crcShift b) : a = b := by
  have low : a.getLsbD 0 = b.getLsbD 0 := by rw [← crcShift_bit31, ← crcShift_bit31, h]
  have high : a >>> 1 = b >>> 1 := by
    unfold crcShift at h
    rw [low] at h
    split at h
    · exact (BitVec.xor_left_inj _).1 h
    · exact h
  apply BitVec.eq_of_getLsbD_eq
  intro i hi
  cases i with
  | zero => exact low
  | succ i =>
    have := congrArg (fun v => v.getLsbD i) high
    simpa [BitVec.getLsbD_ushiftRight, Nat.add_comm] using this

theorem crcShifts_xor (n : Nat) : ∀ a b : Word, crcShifts n (a ^^^ b) = crcShifts n a ^^^ crcShifts n b := by
  induction n with
  | zero => exact fun _ _ => rfl
  | succ n ih => intro a b; simp only [crcShifts, crcShift_xor, ih]

theorem crcShifts_injective (n : Nat) : ∀ {a b : Word}, crcShifts n a = crcShifts n b → a = b := by
  induction n with
  | zero => exact fun h => h
  | succ n ih => exact fun h => crcShift_injective (ih h)

theorem crcShift_even {x : Word} (h : x.getLsbD 0 = false) : crcShift x = x >>> 1 := by
  unfold crcShift
  rw [h]
  rfl

/-- A register whose low byte is 0 is shifted right by eight. -/
theorem crcShifts_low_byte_zero {x : Word} (h : x.setWidth 8 = 0#8) : crcShifts 8 x = x >>> 8 := by
  have bit : ∀ i < 8, x.getLsbD i = false := by
    intro i hi
    have := congrArg (fun v => v.getLsbD i) h
    simpa [hi] using this
  have all : ∀ n, n ≤ 8 → crcShifts n (x >>> (8 - n)) = x >>> 8 := by
    intro n
    induction n with
    | zero => exact fun _ => rfl
    | succ n ih =>
      intro hn
      have low : (x >>> (8 - (n + 1))).getLsbD 0 = false := by
        rw [BitVec.getLsbD_ushiftRight]
        exact bit _ (by omega)
      rw [crcShifts, crcShift_even low, ← BitVec.shiftRight_add, show 8 - (n + 1) + 1 = 8 - n by omega]
      exact ih (by omega)
  exact all 8 (by omega)

theorem crcUpdate_append (s : Word) (a b : List Byte) : crcUpdate s (a ++ b) = crcUpdate (crcUpdate s a) b :=
  List.foldl_append

end Sys2Proof.Machine
end

