-- ==== Sys2Proof/Laws/Words.lean ====
section
/-! SUPPORT. The fields of a transaction word and the bytes of a register word. -/

namespace Sys2Proof

/-- The bits of a transaction word, field by field (R70). -/
theorem word_getLsbD (w : BitVec 1) (off : Offset) (v : Word) (i : Nat) :
    (word w off v).getLsbD i =
      if i < 32 then v.getLsbD i else if i < 40 then off.getLsbD (i - 32) else w.getLsbD (i - 40) := by
  have h1 : (word w off v).getLsbD i = if i < 32 then v.getLsbD i else (w ++ off).getLsbD (i - 32) :=
    BitVec.getLsbD_append
  have h2 : (w ++ off).getLsbD (i - 32) = if i - 32 < 8 then off.getLsbD (i - 32) else w.getLsbD (i - 32 - 8) :=
    BitVec.getLsbD_append
  rw [h1, h2]
  by_cases h : i < 32
  · simp [h]
  · have e : (i - 32 < 8) = (i < 40) := by simp only [eq_iff_iff]; omega
    simp only [h, if_false, e, Nat.sub_sub]

@[simp] theorem Txn.w_word (w : BitVec 1) (off : Offset) (v : Word) : Txn.w (word w off v) = w := by
  apply BitVec.eq_of_getLsbD_eq
  intro i hi
  simp [Txn.w, word_getLsbD, hi, show ¬40 + i < 32 by omega]

@[simp] theorem Txn.off_word (w : BitVec 1) (off : Offset) (v : Word) : Txn.off (word w off v) = off := by
  apply BitVec.eq_of_getLsbD_eq
  intro i hi
  simp [Txn.off, word_getLsbD, hi, show 32 + i < 40 by omega]

@[simp] theorem Txn.wdata_word (w : BitVec 1) (off : Offset) (v : Word) : Txn.wdata (word w off v) = v := by
  apply BitVec.eq_of_getLsbD_eq
  intro i hi
  simp [Txn.wdata, word_getLsbD, hi]

/-- Every transaction word is the word of its three fields (R70). -/
theorem word_fields (t : Txn) : word (Txn.w t) (Txn.off t) (Txn.wdata t) = t := by
  apply BitVec.eq_of_getLsbD_eq
  intro i hi
  rw [word_getLsbD]
  by_cases h : i < 32
  · simp [h, Txn.wdata]
  · by_cases h' : i < 40
    · simp [h, h', Txn.off, show i - 32 < 8 by omega, show 32 + (i - 32) = i by omega]
    · simp [h, h', Txn.w, show i - 40 < 1 by omega, show 40 + (i - 40) = i by omega]

/-- Masking a word masks its fields. -/
theorem word_and (w w' : BitVec 1) (off off' : Offset) (v v' : Word) :
    word w off v &&& word w' off' v' = word (w &&& w') (off &&& off') (v &&& v') := by
  apply BitVec.eq_of_getLsbD_eq
  intro i hi
  simp only [BitVec.getLsbD_and, word_getLsbD]
  by_cases h : i < 32
  · simp [h]
  · by_cases h' : i < 40 <;> simp [h, h']

/-- The command field of a CTRL value is its low four bits (R71). -/
theorem command_and_mask (ignored : BitVec 28) (cmd m : BitVec 4) :
    ((ignored ++ cmd : BitVec (28 + 4)) &&& m.setWidth 32 : Word) = (cmd &&& m).setWidth 32 := by
  apply BitVec.eq_of_getLsbD_eq
  intro i hi
  have h : (ignored ++ cmd : BitVec (28 + 4)).getLsbD i = if i < 4 then cmd.getLsbD i else ignored.getLsbD (i - 4) :=
    BitVec.getLsbD_append
  have hw : (m.setWidth 32).getLsbD i = (decide (i < 32) && m.getLsbD i) := BitVec.getLsbD_setWidth ..
  have hc : ((cmd &&& m).setWidth 32).getLsbD i = (decide (i < 32) && (cmd.getLsbD i && m.getLsbD i)) := by
    simp [show i < 32 from hi]
  refine BitVec.getLsbD_and.trans ?_
  refine Eq.trans ?_ hc.symm
  rw [hw, h]
  by_cases h4 : i < 4
  · simp only [h4, if_true, Bool.and_left_comm]
  · simp only [BitVec.getLsbD_of_ge m i (by omega), Bool.and_false]

@[simp] theorem low_command (ignored : BitVec 28) (cmd : BitVec 4) :
    BitVec.extractLsb' 0 4 (ignored ++ cmd : BitVec 32) = cmd := by
  apply BitVec.eq_of_getLsbD_eq
  intro i hi
  have h : (ignored ++ cmd : BitVec (28 + 4)).getLsbD i = if i < 4 then cmd.getLsbD i else ignored.getLsbD (i - 4) :=
    BitVec.getLsbD_append
  rw [BitVec.getLsbD_extractLsb']
  simpa [hi] using h

@[simp] theorem high_command (ignored : BitVec 28) (cmd : BitVec 4) :
    BitVec.extractLsb' 4 28 (ignored ++ cmd : BitVec 32) = ignored := by
  apply BitVec.eq_of_getLsbD_eq
  intro i hi
  have h : (ignored ++ cmd : BitVec (28 + 4)).getLsbD (4 + i) =
      if 4 + i < 4 then cmd.getLsbD (4 + i) else ignored.getLsbD (4 + i - 4) := BitVec.getLsbD_append
  rw [BitVec.getLsbD_extractLsb']
  simpa [hi, show ¬4 + i < 4 by omega] using h

namespace Machine

/-- The bits of a word put together from four wire bytes (R52). -/
theorem ofWire_getLsbD (b0 b1 b2 b3 : Byte) (i : Nat) :
    (ofWire b0 b1 b2 b3).getLsbD i =
      if i < 8 then b3.getLsbD i else if i < 16 then b2.getLsbD (i - 8)
      else if i < 24 then b1.getLsbD (i - 16) else b0.getLsbD (i - 24) := by
  have h1 : (ofWire b0 b1 b2 b3).getLsbD i = if i < 8 then b3.getLsbD i else (b0 ++ b1 ++ b2).getLsbD (i - 8) :=
    BitVec.getLsbD_append
  have h2 : (b0 ++ b1 ++ b2).getLsbD (i - 8) =
      if i - 8 < 8 then b2.getLsbD (i - 8) else (b0 ++ b1).getLsbD (i - 8 - 8) := BitVec.getLsbD_append
  have h3 : (b0 ++ b1).getLsbD (i - 8 - 8) =
      if i - 8 - 8 < 8 then b1.getLsbD (i - 8 - 8) else b0.getLsbD (i - 8 - 8 - 8) := BitVec.getLsbD_append
  rw [h1, h2, h3]
  by_cases h : i < 8
  · simp [h]
  · have e : (i - 8 < 8) = (i < 16) := by simp only [eq_iff_iff]; omega
    by_cases h' : i < 16
    · simp only [h, h', e, if_false, if_true]
    · have e' : (i - 8 - 8 < 8) = (i < 24) := by simp only [eq_iff_iff]; omega
      simp only [h, h', e, e', if_false]
      simp only [Nat.sub_sub]

@[simp] theorem wireByte_ofWire_0 (b0 b1 b2 b3 : Byte) : wireByte (ofWire b0 b1 b2 b3) 0 = b0 := by
  apply BitVec.eq_of_getLsbD_eq
  intro i hi
  simp [wireByte, ofWire_getLsbD, hi, show ¬24 + i < 16 by omega, show ¬24 + i < 8 by omega]

@[simp] theorem wireByte_ofWire_1 (b0 b1 b2 b3 : Byte) : wireByte (ofWire b0 b1 b2 b3) 1 = b1 := by
  apply BitVec.eq_of_getLsbD_eq
  intro i hi
  simp [wireByte, ofWire_getLsbD, hi, show 16 + i < 24 by omega, show ¬16 + i < 8 by omega]

@[simp] theorem wireByte_ofWire_2 (b0 b1 b2 b3 : Byte) : wireByte (ofWire b0 b1 b2 b3) 2 = b2 := by
  apply BitVec.eq_of_getLsbD_eq
  intro i hi
  simp [wireByte, ofWire_getLsbD, hi, show 8 + i < 16 by omega]

@[simp] theorem wireByte_ofWire_3 (b0 b1 b2 b3 : Byte) : wireByte (ofWire b0 b1 b2 b3) 3 = b3 := by
  apply BitVec.eq_of_getLsbD_eq
  intro i hi
  simp [wireByte, ofWire_getLsbD, hi]

/-- A word is the word of its four wire bytes (R52). -/
@[simp] theorem ofWire_wireByte (v : Word) : ofWire (wireByte v 0) (wireByte v 1) (wireByte v 2) (wireByte v 3) = v := by
  apply BitVec.eq_of_getLsbD_eq
  intro i hi
  rw [ofWire_getLsbD]
  split
  · simp [wireByte, *]
  · split
    · simp [wireByte, show i - 8 < 8 by omega, show 8 + (i - 8) = i by omega]
    · split
      · simp [wireByte, show i - 16 < 8 by omega, show 16 + (i - 16) = i by omega]
      · simp [wireByte, show i - 24 < 8 by omega, show 24 + (i - 24) = i by omega]

/-- The wire bytes of a word put together from four bytes are those bytes (R51, R52). -/
@[simp] theorem be32_ofWire (b0 b1 b2 b3 : Byte) : be32 (ofWire b0 b1 b2 b3) = [b0, b1, b2, b3] := by simp [be32]

@[simp] theorem be32_length (v : Word) : (be32 v).length = 4 := rfl

/-- A byte shifted in stands in the low eight bits, what stood there moves up (44_deframer.md R203). -/
theorem shiftIn_getLsbD (v : Word) (b : Byte) (i : Nat) (hi : i < 32) :
    (shiftIn v b).getLsbD i = if i < 8 then b.getLsbD i else v.getLsbD (i - 8) := by
  by_cases h : i < 8
  · simp [shiftIn, h, hi]
  · have hb : b.getLsbD i = false := BitVec.getLsbD_of_ge b i (by omega)
    simp only [shiftIn, BitVec.getLsbD_or, BitVec.getLsbD_shiftLeft, BitVec.getLsbD_setWidth, h, hi, hb, if_false]
    simp

/-- Four bytes shifted in one after another are the word they spell, whatever stood there (44_deframer.md R214). -/
theorem shiftIn_four (v : Word) (b0 b1 b2 b3 : Byte) :
    shiftIn (shiftIn (shiftIn (shiftIn v b0) b1) b2) b3 = ofWire b0 b1 b2 b3 := by
  apply BitVec.eq_of_getLsbD_eq
  intro i hi
  rw [ofWire_getLsbD, shiftIn_getLsbD _ _ _ hi, shiftIn_getLsbD _ _ _ (by omega), shiftIn_getLsbD _ _ _ (by omega),
    shiftIn_getLsbD _ _ _ (by omega)]
  by_cases h8 : i < 8
  · simp only [h8, if_true]
  · by_cases h16 : i < 16
    · simp only [h8, h16, show i - 8 < 8 by omega, if_true, if_false]
    · by_cases h24 : i < 24
      · simp only [h8, h16, h24, show ¬i - 8 < 8 by omega, show i - 8 - 8 < 8 by omega, if_true, if_false]
        simp only [Nat.sub_sub]
      · simp only [h8, h16, h24, show ¬i - 8 < 8 by omega, show ¬i - 8 - 8 < 8 by omega,
          show i - 8 - 8 - 8 < 8 by omega, if_true, if_false]
        simp only [Nat.sub_sub]

end Machine

end Sys2Proof
end

