-- ==== Sys2Proof/Laws/Decode.lean ====
section
/-! SUPPORT. The decoder on the words of the five formats: what it makes of a read and of a write, what an offset selects,
and the operands of the data formats. -/

namespace Sys2Proof

@[simp] theorem decode_read (off : Offset) (v : Word) : decode (word 0#1 off v) = decodeRead (slotOf off) off v := by
  simp [decode]

@[simp] theorem decode_write (off : Offset) (v : Word) : decode (word 1#1 off v) = decodeWrite (slotOf off) off v := by
  simp [decode]

/-- A transaction word is a read or a write (30_encoding.md R70). -/
theorem txn_read_or_write (t : Txn) :
    (Txn.w t = 0#1 ∧ decode t = decodeRead (slotOf (Txn.off t)) (Txn.off t) (Txn.wdata t))
      ∨ (Txn.w t = 1#1 ∧ decode t = decodeWrite (slotOf (Txn.off t)) (Txn.off t) (Txn.wdata t)) := by
  rcases BitVec.eq_zero_or_eq_one (Txn.w t) with h | h <;> simp [decode, h]

/-! ### What an offset selects -/

@[simp] theorem slotOf_regOffset (r : Reg) : slotOf (regOffset r) = .reg r := by cases r <;> rfl

theorem slotOf_odd (off : Offset) (h : misalignedOddOffset off = true) : slotOf off = .misalignedOdd := by
  simp [slotOf, h]

theorem slotOf_even : ∀ off : Offset, misalignedEvenOffset off = true → slotOf off = .misalignedEven := by decide

theorem slotOf_reserved : ∀ off : Offset, reservedOffset off = true → slotOf off = .reserved := by decide

/-- Every offset is a register's, or misaligned in one of the two ways, or reserved; no two of these (30_encoding.md
R75). -/
theorem slotOf_cases : ∀ off : Offset,
    (∃ r ∈ allRegs, slotOf off = .reg r ∧ off = regOffset r)
      ∨ (slotOf off = .misalignedOdd ∧ misalignedOddOffset off = true)
      ∨ (slotOf off = .misalignedEven ∧ misalignedEvenOffset off = true)
      ∨ (slotOf off = .reserved ∧ reservedOffset off = true) := by decide

/-! ### The operands of the data formats -/

@[simp] theorem decodeCommand_reserved (c : BitVec 4) (ignored : BitVec 28) (h : reservedCommand c = true) :
    decodeCommand c ignored = .cmdReserved c ignored := by
  have hc : ∀ c : BitVec 4, reservedCommand c = true →
      c ≠ 0#4 ∧ c ≠ 1#4 ∧ c ≠ 2#4 ∧ c ≠ 3#4 ∧ c ≠ 4#4 ∧ c ≠ 5#4 ∧ c ≠ 6#4 ∧ c ≠ 7#4 := by decide
  obtain ⟨h0, h1, h2, h3, h4, h5, h6, h7⟩ := hc c h
  simp only [decodeCommand, h0, h1, h2, h3, h4, h5, h6, h7, if_false]

@[simp] theorem low_byte (ignored : BitVec 24) (b : Byte) :
    BitVec.extractLsb' 0 8 (ignored ++ b : BitVec 32) = b := BitVec.extractLsb'_append_eq_right

@[simp] theorem high_byte (ignored : BitVec 24) (b : Byte) :
    BitVec.extractLsb' 8 24 (ignored ++ b : BitVec 32) = ignored := BitVec.extractLsb'_append_eq_left

/-- The four bytes of a DIN32 word, in order (30_encoding.md R71, 20_memory.md R52). -/
@[simp] theorem decode_din32 (a b c d : Byte) :
    decodeWrite (.reg .din32) (regOffset .din32) (a ++ b ++ c ++ d) = .wrDin32 a b c d := by
  have h0 := Machine.wireByte_ofWire_0 a b c d
  have h1 := Machine.wireByte_ofWire_1 a b c d
  have h2 := Machine.wireByte_ofWire_2 a b c d
  have h3 := Machine.wireByte_ofWire_3 a b c d
  simp only [Machine.wireByte, Machine.ofWire] at h0 h1 h2 h3
  simp only [decodeWrite]
  rw [Instr.wrDin32.injEq]
  exact ⟨h0, h1, h2, h3⟩

/-- A DIN32 word is put together from its four bytes. -/
theorem din32_word (v : Word) :
    (v.extractLsb' 24 8 ++ v.extractLsb' 16 8 ++ v.extractLsb' 8 8 ++ v.extractLsb' 0 8 : Word) = v :=
  Machine.ofWire_wireByte v

/-- A word is put together from its low byte and the rest. -/
theorem din8_word (v : Word) : (v.extractLsb' 8 24 ++ v.extractLsb' 0 8 : Word) = v := by
  refine (BitVec.extractLsb'_append_extractLsb'_eq_extractLsb' (x := v) (start₁ := 0) rfl).trans ?_
  exact BitVec.extractLsb'_eq_self

/-- A word is put together from its command field and the rest. -/
theorem command_word (v : Word) : (v.extractLsb' 4 28 ++ v.extractLsb' 0 4 : Word) = v := by
  refine (BitVec.extractLsb'_append_extractLsb'_eq_extractLsb' (x := v) (start₁ := 0) rfl).trans ?_
  exact BitVec.extractLsb'_eq_self

end Sys2Proof
end

