-- ==== Sys2Proof/Laws/State.lean ====
section
/-! SUPPORT. One lemma per field per unconditional update of the state: what a shared operation puts into each field. -/

namespace Sys2Proof.Machine

variable (s : State)

/-! ### setIgn -/

@[simp] theorem setIgn_mode : (setIgn s).mode = s.mode := rfl
@[simp] theorem setIgn_err : (setIgn s).err = s.err := rfl
@[simp] theorem setIgn_ign : (setIgn s).ign = true := rfl
@[simp] theorem setIgn_hdrv : (setIgn s).hdrv = s.hdrv := rfl
@[simp] theorem setIgn_sigmatch : (setIgn s).sigmatch = s.sigmatch := rfl
@[simp] theorem setIgn_phase : (setIgn s).phase = s.phase := rfl
@[simp] theorem setIgn_fcnt : (setIgn s).fcnt = s.fcnt := rfl
@[simp] theorem setIgn_crcState : (setIgn s).crcState = s.crcState := rfl
@[simp] theorem setIgn_tag : (setIgn s).tag = s.tag := rfl
@[simp] theorem setIgn_len : (setIgn s).len = s.len := rfl
@[simp] theorem setIgn_rxcrc : (setIgn s).rxcrc = s.rxcrc := rfl
@[simp] theorem setIgn_rem : (setIgn s).rem = s.rem := rfl
@[simp] theorem setIgn_pos : (setIgn s).pos = s.pos := rfl
@[simp] theorem setIgn_chunks : (setIgn s).chunks = s.chunks := rfl
@[simp] theorem setIgn_cstart : (setIgn s).cstart = s.cstart := rfl
@[simp] theorem setIgn_tagchk : (setIgn s).tagchk = s.tagchk := rfl
@[simp] theorem setIgn_bus : (setIgn s).bus = s.bus := rfl
@[simp] theorem setIgn_rdata : (setIgn s).rdata = s.rdata := rfl
@[simp] theorem setIgn_ignSeen : (setIgn s).ignSeen = true := rfl

/-! ### fail -/

@[simp] theorem fail_mode (k : ErrKind) : (fail k s).mode = .error := rfl
@[simp] theorem fail_err (k : ErrKind) : (fail k s).err = some k := rfl
@[simp] theorem fail_ign (k : ErrKind) : (fail k s).ign = s.ign := rfl
@[simp] theorem fail_hdrv (k : ErrKind) : (fail k s).hdrv = s.hdrv := rfl
@[simp] theorem fail_sigmatch (k : ErrKind) : (fail k s).sigmatch = s.sigmatch := rfl
@[simp] theorem fail_phase (k : ErrKind) : (fail k s).phase = s.phase := rfl
@[simp] theorem fail_fcnt (k : ErrKind) : (fail k s).fcnt = s.fcnt := rfl
@[simp] theorem fail_crcState (k : ErrKind) : (fail k s).crcState = s.crcState := rfl
@[simp] theorem fail_tag (k : ErrKind) : (fail k s).tag = s.tag := rfl
@[simp] theorem fail_len (k : ErrKind) : (fail k s).len = s.len := rfl
@[simp] theorem fail_rxcrc (k : ErrKind) : (fail k s).rxcrc = s.rxcrc := rfl
@[simp] theorem fail_rem (k : ErrKind) : (fail k s).rem = s.rem := rfl
@[simp] theorem fail_pos (k : ErrKind) : (fail k s).pos = s.pos := rfl
@[simp] theorem fail_chunks (k : ErrKind) : (fail k s).chunks = s.chunks := rfl
@[simp] theorem fail_cstart (k : ErrKind) : (fail k s).cstart = s.cstart := rfl
@[simp] theorem fail_tagchk (k : ErrKind) : (fail k s).tagchk = s.tagchk := rfl
@[simp] theorem fail_bus (k : ErrKind) : (fail k s).bus = s.bus := rfl
@[simp] theorem fail_rdata (k : ErrKind) : (fail k s).rdata = s.rdata := rfl
@[simp] theorem fail_ignSeen (k : ErrKind) : (fail k s).ignSeen = s.ignSeen := rfl

/-! ### resetBlock -/

@[simp] theorem resetBlock_mode : (resetBlock s).mode = .idle := rfl
@[simp] theorem resetBlock_err : (resetBlock s).err = none := rfl
@[simp] theorem resetBlock_ign : (resetBlock s).ign = false := rfl
@[simp] theorem resetBlock_hdrv : (resetBlock s).hdrv = false := rfl
@[simp] theorem resetBlock_sigmatch : (resetBlock s).sigmatch = true := rfl
@[simp] theorem resetBlock_phase : (resetBlock s).phase = .none := rfl
@[simp] theorem resetBlock_fcnt : (resetBlock s).fcnt = 0#3 := rfl
@[simp] theorem resetBlock_crcState : (resetBlock s).crcState = 0xFFFFFFFF#32 := rfl
@[simp] theorem resetBlock_tag : (resetBlock s).tag = 0#32 := rfl
@[simp] theorem resetBlock_len : (resetBlock s).len = 0#32 := rfl
@[simp] theorem resetBlock_rxcrc : (resetBlock s).rxcrc = 0#32 := rfl
@[simp] theorem resetBlock_rem : (resetBlock s).rem = 0#32 := rfl
@[simp] theorem resetBlock_pos : (resetBlock s).pos = 0#32 := rfl
@[simp] theorem resetBlock_chunks : (resetBlock s).chunks = 0#32 := rfl
@[simp] theorem resetBlock_cstart : (resetBlock s).cstart = 0#32 := rfl
@[simp] theorem resetBlock_tagchk : (resetBlock s).tagchk = 0#32 := rfl
@[simp] theorem resetBlock_bus : (resetBlock s).bus = s.bus := rfl
@[simp] theorem resetBlock_rdata : (resetBlock s).rdata = s.rdata := rfl
@[simp] theorem resetBlock_ignSeen : (resetBlock s).ignSeen = s.ignSeen := rfl

/-! ### crcPush -/

@[simp] theorem crcPush_mode (b : Byte) : (crcPush b s).mode = s.mode := rfl
@[simp] theorem crcPush_err (b : Byte) : (crcPush b s).err = s.err := rfl
@[simp] theorem crcPush_ign (b : Byte) : (crcPush b s).ign = s.ign := rfl
@[simp] theorem crcPush_hdrv (b : Byte) : (crcPush b s).hdrv = s.hdrv := rfl
@[simp] theorem crcPush_sigmatch (b : Byte) : (crcPush b s).sigmatch = s.sigmatch := rfl
@[simp] theorem crcPush_phase (b : Byte) : (crcPush b s).phase = s.phase := rfl
@[simp] theorem crcPush_fcnt (b : Byte) : (crcPush b s).fcnt = s.fcnt := rfl
@[simp] theorem crcPush_crcState (b : Byte) : (crcPush b s).crcState = crcByte s.crcState b := rfl
@[simp] theorem crcPush_tag (b : Byte) : (crcPush b s).tag = s.tag := rfl
@[simp] theorem crcPush_len (b : Byte) : (crcPush b s).len = s.len := rfl
@[simp] theorem crcPush_rxcrc (b : Byte) : (crcPush b s).rxcrc = s.rxcrc := rfl
@[simp] theorem crcPush_rem (b : Byte) : (crcPush b s).rem = s.rem := rfl
@[simp] theorem crcPush_pos (b : Byte) : (crcPush b s).pos = s.pos + 1#32 := rfl
@[simp] theorem crcPush_chunks (b : Byte) : (crcPush b s).chunks = s.chunks := rfl
@[simp] theorem crcPush_cstart (b : Byte) : (crcPush b s).cstart = s.cstart := rfl
@[simp] theorem crcPush_tagchk (b : Byte) : (crcPush b s).tagchk = s.tagchk := rfl
@[simp] theorem crcPush_bus (b : Byte) : (crcPush b s).bus = s.bus := rfl
@[simp] theorem crcPush_rdata (b : Byte) : (crcPush b s).rdata = s.rdata := rfl
@[simp] theorem crcPush_ignSeen (b : Byte) : (crcPush b s).ignSeen = s.ignSeen := rfl

/-! ### crcEnd -/

@[simp] theorem crcEnd_mode : (crcEnd s).mode = .done := rfl
@[simp] theorem crcEnd_err : (crcEnd s).err = s.err := rfl
@[simp] theorem crcEnd_ign : (crcEnd s).ign = s.ign := rfl
@[simp] theorem crcEnd_hdrv : (crcEnd s).hdrv = s.hdrv := rfl
@[simp] theorem crcEnd_sigmatch : (crcEnd s).sigmatch = s.sigmatch := rfl
@[simp] theorem crcEnd_phase : (crcEnd s).phase = s.phase := rfl
@[simp] theorem crcEnd_fcnt : (crcEnd s).fcnt = s.fcnt := rfl
@[simp] theorem crcEnd_crcState : (crcEnd s).crcState = s.crcState := rfl
@[simp] theorem crcEnd_tag : (crcEnd s).tag = s.tag := rfl
@[simp] theorem crcEnd_len : (crcEnd s).len = s.len := rfl
@[simp] theorem crcEnd_rxcrc : (crcEnd s).rxcrc = s.rxcrc := rfl
@[simp] theorem crcEnd_rem : (crcEnd s).rem = s.rem := rfl
@[simp] theorem crcEnd_pos : (crcEnd s).pos = s.pos := rfl
@[simp] theorem crcEnd_chunks : (crcEnd s).chunks = s.chunks := rfl
@[simp] theorem crcEnd_cstart : (crcEnd s).cstart = s.cstart := rfl
@[simp] theorem crcEnd_tagchk : (crcEnd s).tagchk = s.tagchk := rfl
@[simp] theorem crcEnd_bus : (crcEnd s).bus = s.bus := rfl
@[simp] theorem crcEnd_rdata : (crcEnd s).rdata = s.rdata := rfl
@[simp] theorem crcEnd_ignSeen : (crcEnd s).ignSeen = s.ignSeen := rfl

/-! ### crcStart -/

@[simp] theorem crcStart_mode : (crcStart s).mode = .crc := rfl
@[simp] theorem crcStart_err : (crcStart s).err = none := rfl
@[simp] theorem crcStart_ign : (crcStart s).ign = s.ign := rfl
@[simp] theorem crcStart_hdrv : (crcStart s).hdrv = false := rfl
@[simp] theorem crcStart_sigmatch : (crcStart s).sigmatch = s.sigmatch := rfl
@[simp] theorem crcStart_phase : (crcStart s).phase = .none := rfl
@[simp] theorem crcStart_fcnt : (crcStart s).fcnt = 0#3 := rfl
@[simp] theorem crcStart_crcState : (crcStart s).crcState = crcInit := rfl
@[simp] theorem crcStart_tag : (crcStart s).tag = s.tag := rfl
@[simp] theorem crcStart_len : (crcStart s).len = s.len := rfl
@[simp] theorem crcStart_rxcrc : (crcStart s).rxcrc = s.rxcrc := rfl
@[simp] theorem crcStart_rem : (crcStart s).rem = s.rem := rfl
@[simp] theorem crcStart_pos : (crcStart s).pos = 0#32 := rfl
@[simp] theorem crcStart_chunks : (crcStart s).chunks = s.chunks := rfl
@[simp] theorem crcStart_cstart : (crcStart s).cstart = s.cstart := rfl
@[simp] theorem crcStart_tagchk : (crcStart s).tagchk = s.tagchk := rfl
@[simp] theorem crcStart_bus : (crcStart s).bus = s.bus := rfl
@[simp] theorem crcStart_rdata : (crcStart s).rdata = s.rdata := rfl
@[simp] theorem crcStart_ignSeen : (crcStart s).ignSeen = s.ignSeen := rfl

/-! ### frameEnd -/

@[simp] theorem frameEnd_mode : (frameEnd s).mode = .done := rfl
@[simp] theorem frameEnd_err : (frameEnd s).err = s.err := rfl
@[simp] theorem frameEnd_ign : (frameEnd s).ign = s.ign := rfl
@[simp] theorem frameEnd_hdrv : (frameEnd s).hdrv = s.hdrv := rfl
@[simp] theorem frameEnd_sigmatch : (frameEnd s).sigmatch = s.sigmatch := rfl
@[simp] theorem frameEnd_phase : (frameEnd s).phase = s.phase := rfl
@[simp] theorem frameEnd_fcnt : (frameEnd s).fcnt = s.fcnt := rfl
@[simp] theorem frameEnd_crcState : (frameEnd s).crcState = s.crcState := rfl
@[simp] theorem frameEnd_tag : (frameEnd s).tag = s.tag := rfl
@[simp] theorem frameEnd_len : (frameEnd s).len = s.len := rfl
@[simp] theorem frameEnd_rxcrc : (frameEnd s).rxcrc = s.rxcrc := rfl
@[simp] theorem frameEnd_rem : (frameEnd s).rem = s.rem := rfl
@[simp] theorem frameEnd_pos : (frameEnd s).pos = s.pos := rfl
@[simp] theorem frameEnd_chunks : (frameEnd s).chunks = s.chunks := rfl
@[simp] theorem frameEnd_cstart : (frameEnd s).cstart = s.cstart := rfl
@[simp] theorem frameEnd_tagchk : (frameEnd s).tagchk = s.tagchk := rfl
@[simp] theorem frameEnd_bus : (frameEnd s).bus = s.bus := rfl
@[simp] theorem frameEnd_rdata : (frameEnd s).rdata = s.rdata := rfl
@[simp] theorem frameEnd_ignSeen : (frameEnd s).ignSeen = s.ignSeen := rfl

/-! ### frameClear -/

@[simp] theorem frameClear_mode : (frameClear s).mode = s.mode := rfl
@[simp] theorem frameClear_err : (frameClear s).err = none := rfl
@[simp] theorem frameClear_ign : (frameClear s).ign = s.ign := rfl
@[simp] theorem frameClear_hdrv : (frameClear s).hdrv = false := rfl
@[simp] theorem frameClear_sigmatch : (frameClear s).sigmatch = s.sigmatch := rfl
@[simp] theorem frameClear_phase : (frameClear s).phase = .none := rfl
@[simp] theorem frameClear_fcnt : (frameClear s).fcnt = 0#3 := rfl
@[simp] theorem frameClear_crcState : (frameClear s).crcState = crcInit := rfl
@[simp] theorem frameClear_tag : (frameClear s).tag = s.tag := rfl
@[simp] theorem frameClear_len : (frameClear s).len = 0#32 := rfl
@[simp] theorem frameClear_rxcrc : (frameClear s).rxcrc = s.rxcrc := rfl
@[simp] theorem frameClear_rem : (frameClear s).rem = s.rem := rfl
@[simp] theorem frameClear_pos : (frameClear s).pos = 0#32 := rfl
@[simp] theorem frameClear_chunks : (frameClear s).chunks = s.chunks := rfl
@[simp] theorem frameClear_cstart : (frameClear s).cstart = s.cstart := rfl
@[simp] theorem frameClear_tagchk : (frameClear s).tagchk = s.tagchk := rfl
@[simp] theorem frameClear_bus : (frameClear s).bus = s.bus := rfl
@[simp] theorem frameClear_rdata : (frameClear s).rdata = s.rdata := rfl
@[simp] theorem frameClear_ignSeen : (frameClear s).ignSeen = s.ignSeen := rfl

/-! ### chunkStart -/

@[simp] theorem chunkStart_mode : (chunkStart s).mode = .chunk := rfl
@[simp] theorem chunkStart_err : (chunkStart s).err = none := rfl
@[simp] theorem chunkStart_ign : (chunkStart s).ign = s.ign := rfl
@[simp] theorem chunkStart_hdrv : (chunkStart s).hdrv = false := rfl
@[simp] theorem chunkStart_sigmatch : (chunkStart s).sigmatch = s.sigmatch := rfl
@[simp] theorem chunkStart_phase : (chunkStart s).phase = .len := rfl
@[simp] theorem chunkStart_fcnt : (chunkStart s).fcnt = 0#3 := rfl
@[simp] theorem chunkStart_crcState : (chunkStart s).crcState = crcInit := rfl
@[simp] theorem chunkStart_tag : (chunkStart s).tag = 0#32 := rfl
@[simp] theorem chunkStart_len : (chunkStart s).len = 0#32 := rfl
@[simp] theorem chunkStart_rxcrc : (chunkStart s).rxcrc = 0#32 := rfl
@[simp] theorem chunkStart_rem : (chunkStart s).rem = 0#32 := rfl
@[simp] theorem chunkStart_pos : (chunkStart s).pos = 0#32 := rfl
@[simp] theorem chunkStart_chunks : (chunkStart s).chunks = 0#32 := rfl
@[simp] theorem chunkStart_cstart : (chunkStart s).cstart = 0#32 := rfl
@[simp] theorem chunkStart_tagchk : (chunkStart s).tagchk = s.tagchk := rfl
@[simp] theorem chunkStart_bus : (chunkStart s).bus = s.bus := rfl
@[simp] theorem chunkStart_rdata : (chunkStart s).rdata = s.rdata := rfl
@[simp] theorem chunkStart_ignSeen : (chunkStart s).ignSeen = s.ignSeen := rfl

/-! ### streamStart -/

@[simp] theorem streamStart_mode : (streamStart s).mode = .stream := rfl
@[simp] theorem streamStart_err : (streamStart s).err = none := rfl
@[simp] theorem streamStart_ign : (streamStart s).ign = s.ign := rfl
@[simp] theorem streamStart_hdrv : (streamStart s).hdrv = false := rfl
@[simp] theorem streamStart_sigmatch : (streamStart s).sigmatch = true := rfl
@[simp] theorem streamStart_phase : (streamStart s).phase = .sig := rfl
@[simp] theorem streamStart_fcnt : (streamStart s).fcnt = 0#3 := rfl
@[simp] theorem streamStart_crcState : (streamStart s).crcState = crcInit := rfl
@[simp] theorem streamStart_tag : (streamStart s).tag = 0#32 := rfl
@[simp] theorem streamStart_len : (streamStart s).len = 0#32 := rfl
@[simp] theorem streamStart_rxcrc : (streamStart s).rxcrc = 0#32 := rfl
@[simp] theorem streamStart_rem : (streamStart s).rem = 0#32 := rfl
@[simp] theorem streamStart_pos : (streamStart s).pos = 0#32 := rfl
@[simp] theorem streamStart_chunks : (streamStart s).chunks = 0#32 := rfl
@[simp] theorem streamStart_cstart : (streamStart s).cstart = 0#32 := rfl
@[simp] theorem streamStart_tagchk : (streamStart s).tagchk = s.tagchk := rfl
@[simp] theorem streamStart_bus : (streamStart s).bus = s.bus := rfl
@[simp] theorem streamStart_rdata : (streamStart s).rdata = s.rdata := rfl
@[simp] theorem streamStart_ignSeen : (streamStart s).ignSeen = s.ignSeen := rfl

/-! ### chunkBegin -/

@[simp] theorem chunkBegin_mode (off : Word) : (chunkBegin off s).mode = s.mode := rfl
@[simp] theorem chunkBegin_err (off : Word) : (chunkBegin off s).err = s.err := rfl
@[simp] theorem chunkBegin_ign (off : Word) : (chunkBegin off s).ign = s.ign := rfl
@[simp] theorem chunkBegin_hdrv (off : Word) : (chunkBegin off s).hdrv = false := rfl
@[simp] theorem chunkBegin_sigmatch (off : Word) : (chunkBegin off s).sigmatch = s.sigmatch := rfl
@[simp] theorem chunkBegin_phase (off : Word) : (chunkBegin off s).phase = .len := rfl
@[simp] theorem chunkBegin_fcnt (off : Word) : (chunkBegin off s).fcnt = 0#3 := rfl
@[simp] theorem chunkBegin_crcState (off : Word) : (chunkBegin off s).crcState = crcInit := rfl
@[simp] theorem chunkBegin_tag (off : Word) : (chunkBegin off s).tag = 0#32 := rfl
@[simp] theorem chunkBegin_len (off : Word) : (chunkBegin off s).len = 0#32 := rfl
@[simp] theorem chunkBegin_rxcrc (off : Word) : (chunkBegin off s).rxcrc = 0#32 := rfl
@[simp] theorem chunkBegin_rem (off : Word) : (chunkBegin off s).rem = 0#32 := rfl
@[simp] theorem chunkBegin_pos (off : Word) : (chunkBegin off s).pos = s.pos := rfl
@[simp] theorem chunkBegin_chunks (off : Word) : (chunkBegin off s).chunks = s.chunks := rfl
@[simp] theorem chunkBegin_cstart (off : Word) : (chunkBegin off s).cstart = off := rfl
@[simp] theorem chunkBegin_tagchk (off : Word) : (chunkBegin off s).tagchk = s.tagchk := rfl
@[simp] theorem chunkBegin_bus (off : Word) : (chunkBegin off s).bus = s.bus := rfl
@[simp] theorem chunkBegin_rdata (off : Word) : (chunkBegin off s).rdata = s.rdata := rfl
@[simp] theorem chunkBegin_ignSeen (off : Word) : (chunkBegin off s).ignSeen = s.ignSeen := rfl

/-! ### chunkEnd -/

@[simp] theorem chunkEnd_mode : (chunkEnd s).mode = .error := rfl
@[simp] theorem chunkEnd_err : (chunkEnd s).err = some .unexpectedEof := rfl
@[simp] theorem chunkEnd_ign : (chunkEnd s).ign = s.ign := rfl
@[simp] theorem chunkEnd_hdrv : (chunkEnd s).hdrv = s.hdrv := rfl
@[simp] theorem chunkEnd_sigmatch : (chunkEnd s).sigmatch = s.sigmatch := rfl
@[simp] theorem chunkEnd_phase : (chunkEnd s).phase = s.phase := rfl
@[simp] theorem chunkEnd_fcnt : (chunkEnd s).fcnt = s.fcnt := rfl
@[simp] theorem chunkEnd_crcState : (chunkEnd s).crcState = s.crcState := rfl
@[simp] theorem chunkEnd_tag : (chunkEnd s).tag = s.tag := rfl
@[simp] theorem chunkEnd_len : (chunkEnd s).len = s.len := rfl
@[simp] theorem chunkEnd_rxcrc : (chunkEnd s).rxcrc = s.rxcrc := rfl
@[simp] theorem chunkEnd_rem : (chunkEnd s).rem = s.rem := rfl
@[simp] theorem chunkEnd_pos : (chunkEnd s).pos = s.pos := rfl
@[simp] theorem chunkEnd_chunks : (chunkEnd s).chunks = s.chunks := rfl
@[simp] theorem chunkEnd_cstart : (chunkEnd s).cstart = s.cstart := rfl
@[simp] theorem chunkEnd_tagchk : (chunkEnd s).tagchk = s.tagchk := rfl
@[simp] theorem chunkEnd_bus : (chunkEnd s).bus = s.bus := rfl
@[simp] theorem chunkEnd_rdata : (chunkEnd s).rdata = s.rdata := rfl
@[simp] theorem chunkEnd_ignSeen : (chunkEnd s).ignSeen = s.ignSeen := rfl

/-! ### abort -/

@[simp] theorem abort_mode : (abort s).mode = .idle := rfl
@[simp] theorem abort_err : (abort s).err = none := rfl
@[simp] theorem abort_ign : (abort s).ign = s.ign := rfl
@[simp] theorem abort_hdrv : (abort s).hdrv = false := rfl
@[simp] theorem abort_sigmatch : (abort s).sigmatch = true := rfl
@[simp] theorem abort_phase : (abort s).phase = .none := rfl
@[simp] theorem abort_fcnt : (abort s).fcnt = 0#3 := rfl
@[simp] theorem abort_crcState : (abort s).crcState = s.crcState := rfl
@[simp] theorem abort_tag : (abort s).tag = s.tag := rfl
@[simp] theorem abort_len : (abort s).len = s.len := rfl
@[simp] theorem abort_rxcrc : (abort s).rxcrc = s.rxcrc := rfl
@[simp] theorem abort_rem : (abort s).rem = s.rem := rfl
@[simp] theorem abort_pos : (abort s).pos = s.pos := rfl
@[simp] theorem abort_chunks : (abort s).chunks = s.chunks := rfl
@[simp] theorem abort_cstart : (abort s).cstart = s.cstart := rfl
@[simp] theorem abort_tagchk : (abort s).tagchk = s.tagchk := rfl
@[simp] theorem abort_bus : (abort s).bus = s.bus := rfl
@[simp] theorem abort_rdata : (abort s).rdata = s.rdata := rfl
@[simp] theorem abort_ignSeen : (abort s).ignSeen = s.ignSeen := rfl

end Sys2Proof.Machine
end

