-- ==== Sys2Proof/Laws/Ops.lean ====
section
/-! SUPPORT. What the shared operations with a case split can do: which fields they never touch, that they do not look at
the bus, and how a byte moves the mode. -/

namespace Sys2Proof.Machine

/-! ### Acceptance -/

theorem whenStartable_startable {s : State} (f : State → State) (h : startable s.mode = true) :
    whenStartable f s = f s := by simp [whenStartable, h]

theorem whenStartable_active {s : State} (f : State → State) (h : startable s.mode = false) :
    whenStartable f s = setIgn s := by simp [whenStartable, h]

theorem whenHostWritable_writable {s : State} (f : State → State) (h : hostWritable s.mode = true) :
    whenHostWritable f s = f s := by simp [whenHostWritable, h]

theorem whenHostWritable_refused {s : State} (f : State → State) (h : hostWritable s.mode = false) :
    whenHostWritable f s = setIgn s := by simp [whenHostWritable, h]

/-! ### The field phases of the deframer, one spec lemma each -/

theorem sigPush_eq (b : Byte) (s : State) :
    sigPush b s =
      if s.fcnt < 7#3 then { s with sigmatch := s.sigmatch && decide (b = signatureByte s.fcnt), fcnt := s.fcnt + 1#3 }
      else if s.sigmatch = true ∧ b = signatureByte s.fcnt then { s with fcnt := 0#3, phase := .bound }
      else { s with sigmatch := s.sigmatch && decide (b = signatureByte s.fcnt), fcnt := 0#3, mode := .error,
                    err := some .badSignature } := by
  obtain ⟨⟩ := s
  unfold sigPush fail
  simp only
  split <;> split <;> simp_all

theorem lenPush_eq (b : Byte) (s : State) :
    lenPush b s =
      if s.fcnt < 3#3 then { s with len := shiftIn s.len b, fcnt := s.fcnt + 1#3 }
      else { s with len := shiftIn s.len b, fcnt := 0#3, phase := .tag } := rfl

theorem tagPush_eq (b : Byte) (s : State) :
    tagPush b s =
      if s.fcnt < 3#3 then
        { s with tag := shiftIn s.tag b, crcState := crcByte s.crcState b, fcnt := s.fcnt + 1#3 }
      else if validTag (shiftIn s.tag b) = true then
        { s with
          tag := shiftIn s.tag b, crcState := crcByte s.crcState b, fcnt := 0#3, hdrv := true, rem := s.len,
          phase := if s.len = 0#32 then .crc else .data }
      else
        { s with
          tag := shiftIn s.tag b, crcState := crcByte s.crcState b, fcnt := 0#3, mode := .error,
          err := some .invalidTagBytes } := rfl

theorem dataPush_eq (b : Byte) (s : State) :
    dataPush b s =
      { s with
        crcState := crcByte s.crcState b, rem := s.rem - 1#32,
        phase := if s.rem - 1#32 = 0#32 then .crc else s.phase } := by
  obtain ⟨⟩ := s
  simp only [dataPush]
  split <;> rfl

theorem checksumPush_eq (b : Byte) (s : State) :
    checksumPush b s =
      if s.fcnt < 3#3 then { s with rxcrc := shiftIn s.rxcrc b, fcnt := s.fcnt + 1#3 }
      else if shiftIn s.rxcrc b = crcFinish s.crcState then
        { s with
          rxcrc := shiftIn s.rxcrc b, fcnt := 0#3, chunks := s.chunks + 1#32, phase := .bound,
          mode := if s.mode = .chunk then .done else s.mode }
      else
        { s with rxcrc := shiftIn s.rxcrc b, fcnt := 0#3, mode := .error, err := some .checksumMismatch } := rfl

/-! ### The bus, the values read and TAGCHK are no business of a byte or of END -/

/-- The state with other surroundings: another bus and other values read. -/
def State.around (s : State) (bus : List BusEvent) (rdata : List Word) : State := { s with bus := bus, rdata := rdata }

theorem deframePush_around (b : Byte) (s : State) (x : List BusEvent) (y : List Word) :
    deframePush b (s.around x y) = (deframePush b s).around x y := by
  obtain ⟨⟩ := s
  simp only [deframePush, State.around]
  split <;> simp only [sigPush_eq, lenPush_eq, tagPush_eq, dataPush_eq, checksumPush_eq, chunkBegin] <;>
    repeat' split
  all_goals rfl

theorem push_around (b : Byte) (s : State) (x : List BusEvent) (y : List Word) :
    push b (s.around x y) = (push b s).around x y := by
  have hm : (s.around x y).mode = s.mode := rfl
  unfold push
  rw [hm]
  split <;> first | exact deframePush_around b s x y | rfl | skip
  simp only [framePush]
  have hl : (s.around x y).len = s.len := rfl
  rw [hl]
  split <;> rfl

theorem pushAll_around (bs : List Byte) (s : State) (x : List BusEvent) (y : List Word) :
    pushAll bs (s.around x y) = (pushAll bs s).around x y := by
  induction bs generalizing s with
  | nil => rfl
  | cons b bs ih =>
    simp only [pushAll, List.foldl_cons] at ih ⊢
    rw [push_around, ih]

theorem endInput_around (s : State) (x : List BusEvent) (y : List Word) :
    endInput (s.around x y) = (endInput s).around x y := by
  have hm : (s.around x y).mode = s.mode := rfl
  unfold endInput
  rw [hm]
  split <;> first | rfl | skip
  have hp : (s.around x y).phase = s.phase := rfl
  unfold streamEnd
  rw [hp]
  split <;> rfl

theorem push_bus (b : Byte) (s : State) : (push b s).bus = s.bus := by
  have h := push_around b s s.bus s.rdata
  have e : s.around s.bus s.rdata = s := rfl
  rw [e] at h
  rw [h]
  rfl

theorem push_rdata (b : Byte) (s : State) : (push b s).rdata = s.rdata := by
  have h := push_around b s s.bus s.rdata
  have e : s.around s.bus s.rdata = s := rfl
  rw [e] at h
  rw [h]
  rfl

@[simp] theorem pushAll_nil (s : State) : pushAll [] s = s := rfl

@[simp] theorem pushAll_cons (b : Byte) (bs : List Byte) (s : State) :
    pushAll (b :: bs) s = pushAll bs (push b s) := rfl

theorem pushAll_append (a b : List Byte) (s : State) : pushAll (a ++ b) s = pushAll b (pushAll a s) :=
  List.foldl_append

/-! ### A byte in each mode -/

theorem push_crc {s : State} (b : Byte) (h : s.mode = .crc) : push b s = crcPush b s := by simp [push, h]

theorem push_frame {s : State} (b : Byte) (h : s.mode = .frame) : push b s = framePush b s := by simp [push, h]

theorem push_deframe {s : State} (b : Byte) (h : s.mode = .chunk ∨ s.mode = .stream) :
    push b s = deframePush b s := by rcases h with h | h <;> simp [push, h]

theorem push_startable {s : State} (b : Byte) (h : startable s.mode = true) : push b s = setIgn s := by
  unfold push
  split <;> simp_all [startable]

/-- Bytes outside a function leave all but IGN and its ghost mark as it was (40_control.md R111). -/
theorem pushAll_startable {s : State} (bs : List Byte) (h : startable s.mode = true) :
    pushAll bs s = if bs = [] then s else setIgn s := by
  induction bs generalizing s with
  | nil => rfl
  | cons b bs ih =>
    rw [pushAll_cons, push_startable b h, ih (by simpa using h)]
    split <;> simp_all [setIgn]

end Sys2Proof.Machine
end

