-- ==== Sys2Proof/Laws/Fields.lean ====
section
/-! SUPPORT. Whole fields through the block: the four bytes of a length, a tag and a checksum, and a run of payload
bytes, each as one update (43_framer.md R182; 44_deframer.md R213 to R220). -/

namespace Sys2Proof.Machine

/-- The four bytes of a length field, from the start of the LEN phase. -/
theorem pushAll_length {s : State} (b0 b1 b2 b3 : Byte) (hm : s.mode = .chunk ∨ s.mode = .stream) (hp : s.phase = .len)
    (hf : s.fcnt = 0#3) :
    pushAll [b0, b1, b2, b3] s =
      { s with pos := s.pos + 4#32, len := ofWire b0 b1 b2 b3, fcnt := 0#3, phase := .tag } := by
  obtain ⟨m, e, i, hd, sm, p, f, cs, tag, len, rx, rem, pos, ch, cst, tc, bus, rd, ig⟩ := s
  simp only at hm hp hf
  subst hp hf
  rw [← shiftIn_four len b0 b1 b2 b3]
  have : pos + 4#32 = pos + 1#32 + 1#32 + 1#32 + 1#32 := by bv_omega
  simp only [this]
  rcases hm with rfl | rfl <;> rfl

/-- The four bytes of a length field, the first of them at BOUND. -/
theorem pushAll_length_at_bound {s : State} (b0 b1 b2 b3 : Byte) (hm : s.mode = .chunk ∨ s.mode = .stream)
    (hp : s.phase = .bound) :
    pushAll [b0, b1, b2, b3] s =
      { s with
        cstart := s.pos, tag := 0#32, rxcrc := 0#32, rem := 0#32, hdrv := false, crcState := crcInit,
        pos := s.pos + 4#32, len := ofWire b0 b1 b2 b3, fcnt := 0#3, phase := .tag } := by
  obtain ⟨m, e, i, hd, sm, p, f, cs, tag, len, rx, rem, pos, ch, cst, tc, bus, rd, ig⟩ := s
  simp only at hm hp
  subst hp
  rw [← shiftIn_four 0#32 b0 b1 b2 b3]
  have : pos + 4#32 = pos + 1#32 + 1#32 + 1#32 + 1#32 := by bv_omega
  simp only [this]
  rcases hm with rfl | rfl <;> rfl

/-- The four bytes of a tag, from the start of the TAG phase. -/
theorem pushAll_tag {s : State} (b0 b1 b2 b3 : Byte) (hm : s.mode = .chunk ∨ s.mode = .stream) (hp : s.phase = .tag)
    (hf : s.fcnt = 0#3) :
    pushAll [b0, b1, b2, b3] s =
      if validTag (ofWire b0 b1 b2 b3) then
        { s with
          pos := s.pos + 4#32, tag := ofWire b0 b1 b2 b3, crcState := crcUpdate s.crcState [b0, b1, b2, b3],
          fcnt := 0#3, hdrv := true, rem := s.len, phase := if s.len = 0#32 then .crc else .data }
      else
        { s with
          pos := s.pos + 4#32, tag := ofWire b0 b1 b2 b3, crcState := crcUpdate s.crcState [b0, b1, b2, b3],
          fcnt := 0#3, mode := .error, err := some .invalidTagBytes } := by
  obtain ⟨m, e, i, hd, sm, p, f, cs, tag, len, rx, rem, pos, ch, cst, tc, bus, rd, ig⟩ := s
  simp only at hm hp hf
  subst hp hf
  rw [← shiftIn_four tag b0 b1 b2 b3]
  have : pos + 4#32 = pos + 1#32 + 1#32 + 1#32 + 1#32 := by bv_omega
  simp only [this]
  rcases hm with rfl | rfl <;> rfl

/-- The four bytes of a checksum, from the start of the CRC phase. -/
theorem pushAll_checksum {s : State} (b0 b1 b2 b3 : Byte) (hm : s.mode = .chunk ∨ s.mode = .stream)
    (hp : s.phase = .crc) (hf : s.fcnt = 0#3) :
    pushAll [b0, b1, b2, b3] s =
      if ofWire b0 b1 b2 b3 = crcFinish s.crcState then
        { s with
          pos := s.pos + 4#32, rxcrc := ofWire b0 b1 b2 b3, fcnt := 0#3, chunks := s.chunks + 1#32, phase := .bound,
          mode := if s.mode = .chunk then .done else s.mode }
      else
        { s with
          pos := s.pos + 4#32, rxcrc := ofWire b0 b1 b2 b3, fcnt := 0#3, mode := .error,
          err := some .checksumMismatch } := by
  obtain ⟨m, e, i, hd, sm, p, f, cs, tag, len, rx, rem, pos, ch, cst, tc, bus, rd, ig⟩ := s
  simp only at hm hp hf
  subst hp hf
  rw [← shiftIn_four rx b0 b1 b2 b3]
  have : pos + 4#32 = pos + 1#32 + 1#32 + 1#32 + 1#32 := by bv_omega
  simp only [this]
  rcases hm with rfl | rfl <;> rfl

/-- Payload bytes, at most as many as REM says are missing. -/
theorem pushAll_data (d : List Byte) : ∀ {s : State}, s.mode = .chunk ∨ s.mode = .stream → s.phase = .data →
    s.rem ≠ 0#32 → d.length ≤ s.rem.toNat →
    pushAll d s =
      { s with
        pos := s.pos + BitVec.ofNat 32 d.length, crcState := crcUpdate s.crcState d,
        rem := s.rem - BitVec.ofNat 32 d.length, phase := if d.length = s.rem.toNat then .crc else .data } := by
  induction d with
  | nil =>
    intro s _ hp hr _
    have : ¬ 0 = s.rem.toNat := by intro h; apply hr; bv_omega
    simp [crcUpdate, this, ← hp]
  | cons b d ih =>
    intro s hm hp hr hl
    simp only [List.length_cons] at hl
    rw [pushAll_cons, push_deframe b hm]
    simp only [deframePush, hp, dataPush_eq]
    by_cases h1 : s.rem - 1#32 = 0#32
    · have hr1 : s.rem = 1#32 := by bv_omega
      have : d = [] := by rw [hr1] at hl; simp at hl; exact hl
      subst this
      simp [crcUpdate, hr1]
    · simp only [h1, if_false]
      have hr0 : s.rem.toNat ≠ 0 := by intro h; apply hr; bv_omega
      have e1 : (s.rem - 1#32).toNat = s.rem.toNat - 1 := by bv_omega
      rw [ih (s := { s with pos := s.pos + 1#32, crcState := crcByte s.crcState b, rem := s.rem - 1#32, phase := .data })
        hm rfl h1 (by simp only; omega)]
      simp only [crcUpdate, List.foldl_cons, List.length_cons, e1]
      have : (d.length = s.rem.toNat - 1) = (d.length + 1 = s.rem.toNat) := by rw [eq_iff_iff]; omega
      simp only [this]
      congr 1 <;> bv_omega

/-- Payload bytes in FRAME mode, as many as LEN can still count. -/
theorem pushAll_frame (d : List Byte) : ∀ {s : State}, s.mode = .frame → s.len.toNat + d.length < 2 ^ 32 →
    s.pos = s.len →
    pushAll d s =
      { s with
        crcState := crcUpdate s.crcState d, len := s.len + BitVec.ofNat 32 d.length,
        pos := s.pos + BitVec.ofNat 32 d.length } := by
  induction d with
  | nil => intro s _ _ _; simp [crcUpdate]
  | cons b d ih =>
    intro s hm hl hp
    simp only [List.length_cons] at hl
    rw [pushAll_cons, push_frame b hm, framePush, if_neg (by intro h; rw [h] at hl; simp at hl; omega)]
    rw [ih (s := { s with crcState := crcByte s.crcState b, len := s.len + 1#32, pos := s.pos + 1#32 })
      hm (by simp only; bv_omega) (by simp only; rw [hp])]
    simp only [crcUpdate, List.foldl_cons, List.length_cons]
    congr 1
    · bv_omega
    · bv_omega

/-- The word at the front of a byte sequence. -/
theorem takeWord_eq_some {l r : List Byte} {v : Word} (h : takeWord l = some (v, r)) :
    ∃ b0 b1 b2 b3 : Byte, l = b0 :: b1 :: b2 :: b3 :: r ∧ v = ofWire b0 b1 b2 b3 := by
  rcases l with _ | ⟨b0, _ | ⟨b1, _ | ⟨b2, _ | ⟨b3, l⟩⟩⟩⟩ <;> cases h
  exact ⟨_, _, _, _, rfl, rfl⟩

end Sys2Proof.Machine
end

