-- ==== Sys2Proof/Laws/Host.lean ====
section
/-! SUPPORT. What a line of a host program does (30_encoding.md R79, R80), issuing in parts, and reading a register. -/

namespace Sys2Proof.Machine

theorem setWidth_byte (b : Byte) : (b.setWidth 32 : Word) = (0#24 ++ b : BitVec 32) := by
  apply BitVec.eq_of_getLsbD_eq
  intro i hi
  have : (0#24 ++ b : BitVec (24 + 8)).getLsbD i = if i < 8 then b.getLsbD i else (0#24).getLsbD (i - 8) :=
    BitVec.getLsbD_append
  refine Eq.trans ?_ this.symm
  by_cases h : i < 8
  · simp [h, hi]
  · simp [h, hi, BitVec.getLsbD_of_ge b i (by omega)]

theorem exec_asmPush8 (b : Byte) (s : State) : exec (decode (asmPush8 b)) s = .next (push b s) := by
  unfold asmPush8 asmWr nameOffset
  rw [decode_write, setWidth_byte, slotOf_regOffset]
  simp only [decodeWrite, low_byte]
  rfl

theorem exec_asmPush32 (b0 b1 b2 b3 : Byte) (s : State) :
    exec (decode (asmPush32 (b0 ++ b1 ++ b2 ++ b3))) s = .next (pushAll [b0, b1, b2, b3] s) := by
  unfold asmPush32 asmWr nameOffset
  rw [decode_write, slotOf_regOffset, decode_din32]
  rfl

theorem exec_asmCmd (c : CmdName) (s : State) :
    exec (decode (asmCmd c)) s = exec (decodeCommand (cmdCode c) 0#28) s := by
  have code : ∀ c : BitVec 4, (c.setWidth 32 : Word).extractLsb' 0 4 = c ∧ (c.setWidth 32 : Word).extractLsb' 4 28 = 0#28 := by
    decide
  unfold asmCmd asmWr nameOffset
  rw [decode_write, slotOf_regOffset]
  simp only [decodeWrite]
  rw [(code _).1, (code _).2]

theorem exec_asmWr_tag (v : Word) (s : State) : exec (decode (asmWr (.reg .tag) v)) s = exec (.wrTag v) s := by
  unfold asmWr nameOffset
  rw [decode_write, slotOf_regOffset]
  rfl

theorem issue_append (p q : List Txn) : ∀ s : State, issue (p ++ q) s = (issue p s).bind (issue q) := by
  induction p with
  | nil => exact fun _ => rfl
  | cons t p ih =>
    intro s
    simp only [List.cons_append, issue]
    cases exec (decode t) s <;> simp [ih]

theorem readReg_eq {r : Reg} {s : State} {v : Word}
    (h : exec (decodeRead (.reg r) (regOffset r) 0#32) s = .next { s with rdata := s.rdata ++ [v] }) :
    readReg r s = some (v, { s with rdata := s.rdata ++ [v] }) := by
  unfold readReg
  simp only [issue, asmRd, nameOffset, decode_read, slotOf_regOffset, h]
  simp

theorem push_with_bus (b : Byte) (s : State) (x : List BusEvent) :
    push b { s with bus := x } = { push b s with bus := x } := by
  have := push_around b s x s.rdata
  have e : ({ s with bus := x } : State) = s.around x s.rdata := rfl
  rw [e, this]
  simp only [State.around, push_rdata]

/-- Every transaction completes, and what the bus still holds plays no part in it (R100). -/
theorem exec_with_bus (i : Instr) (s : State) (x : List BusEvent) :
    ∃ t : State, exec i s = .next t ∧ exec i { s with bus := x } = .next { t with bus := x } := by
  cases i
  case wrDin8 b g => exact ⟨_, rfl, by show Host.Outcome.next (push b _) = _; rw [push_with_bus]⟩
  case wrDin32 b0 b1 b2 b3 =>
    exact ⟨_, rfl, by
      show Host.Outcome.next (push b3 (push b2 (push b1 (push b0 _)))) = _
      simp only [push_with_bus]⟩
  case cmdEnd =>
    refine ⟨_, rfl, ?_⟩
    show Host.Outcome.next (endInput _) = _
    obtain ⟨m, _, _, _, _, p⟩ := s
    cases m <;> try rfl
    cases p <;> rfl
  case cmdFrameStart =>
    refine ⟨_, rfl, ?_⟩
    show Host.Outcome.next (whenStartable _ _) = _
    simp only [whenStartable, frameStart, frameClear, fail, setIgn]
    split <;> [split; skip] <;> rfl
  all_goals first | exact ⟨_, rfl, rfl⟩ | skip
  all_goals
    refine ⟨_, rfl, ?_⟩
    first
    | (show Host.Outcome.next (whenStartable _ _) = _; simp only [whenStartable]; split <;> rfl)
    | (show Host.Outcome.next (whenHostWritable _ _) = _; simp only [whenHostWritable]; split <;> rfl)

end Sys2Proof.Machine
end

