-- ==== Sys2Proof/Laws/PerInstr.lean ====
section
/-! SUPPORT. The family EncodingRow: the encoding of an instruction lies in the row of spec/opcode_table.json that its
mnemonic names, fixed bits and all (30_encoding.md R74). One lemma per constructor. -/

namespace Sys2Proof.Laws

/-- The encoding of a well-formed instruction has the fixed bits of a row that carries its mnemonic (R74). -/
def EncodingRow.Statement (i : Instr) : Prop :=
  i.wellFormed = true → ∃ r ∈ tableRows ++ fallbackRows, r.mnemonic = i.mnemonic ∧ r.applies (encode i) = true

/-- A row whose mask takes all of W and OFF and nothing of WDATA. -/
theorem row_of_offset (m : String) (w : BitVec 1) (off : Offset) (v : Word) :
    (Row.mk m (word w off 0#32) (word 1#1 0xFF#8 0#32)).applies (word w off v) = true := by
  have hw : w &&& 1#1 = w := BitVec.and_allOnes
  have ho : off &&& 0xFF#8 = off := BitVec.and_allOnes
  simp [Row.applies, word_and, hw, ho]

/-- A row whose mask takes W, OFF and some bits `n` of CMD. -/
theorem row_of_command (m : String) (w : BitVec 1) (off : Offset) (ignored : BitVec 28) (cmd n c : BitVec 4)
    (h : cmd &&& n = c) :
    (Row.mk m (word w off (c.setWidth 32)) (word 1#1 0xFF#8 (n.setWidth 32))).applies
      (word w off (ignored ++ cmd)) = true := by
  have hw : w &&& 1#1 = w := BitVec.and_allOnes
  have ho : off &&& 0xFF#8 = off := BitVec.and_allOnes
  have hc := command_and_mask ignored cmd n
  simp only [Row.applies, word_and, hw, ho, beq_iff_eq]
  rw [← h]
  exact congrArg (word w off) hc

/-- A row whose mask takes W and some bits of OFF. -/
theorem row_of_offset_bits (m : String) (w : BitVec 1) (off n o : Offset) (v : Word) (h : off &&& n = o) :
    (Row.mk m (word w o 0#32) (word 1#1 n 0#32)).applies (word w off v) = true := by
  have hw : w &&& 1#1 = w := BitVec.and_allOnes
  simp [Row.applies, word_and, hw, h]

theorem odd_bits : ∀ off : Offset, misalignedOddOffset off = true → off &&& 0x01#8 = 0x01#8 := by decide

theorem even_bits : ∀ off : Offset, misalignedEvenOffset off = true → off &&& 0x03#8 = 0x02#8 := by decide

theorem reserved_command_bits : ∀ cmd : BitVec 4, reservedCommand cmd = true → cmd &&& 0x8#4 = 0x8#4 := by decide

theorem EncodingRow.rdId (ignored : Word) : EncodingRow.Statement (.rdId ignored) := fun _ =>
  ⟨⟨"RD_ID", 0x00000000000#41, 0x1FF00000000#41⟩, by decide, rfl, row_of_offset _ _ _ _⟩

theorem EncodingRow.wrId (value : Word) : EncodingRow.Statement (.wrId value) := fun _ =>
  ⟨⟨"WR_ID", 0x10000000000#41, 0x1FF00000000#41⟩, by decide, rfl, row_of_offset _ _ _ _⟩

theorem EncodingRow.rdVersion (ignored : Word) : EncodingRow.Statement (.rdVersion ignored) := fun _ =>
  ⟨⟨"RD_VERSION", 0x00400000000#41, 0x1FF00000000#41⟩, by decide, rfl, row_of_offset _ _ _ _⟩

theorem EncodingRow.wrVersion (value : Word) : EncodingRow.Statement (.wrVersion value) := fun _ =>
  ⟨⟨"WR_VERSION", 0x10400000000#41, 0x1FF00000000#41⟩, by decide, rfl, row_of_offset _ _ _ _⟩

theorem EncodingRow.rdCtrl (ignored : Word) : EncodingRow.Statement (.rdCtrl ignored) := fun _ =>
  ⟨⟨"RD_CTRL", 0x00800000000#41, 0x1FF00000000#41⟩, by decide, rfl, row_of_offset _ _ _ _⟩

theorem EncodingRow.cmdNop (ignored : BitVec 28) : EncodingRow.Statement (.cmdNop ignored) := fun _ =>
  ⟨⟨"CMD_NOP", 0x10800000000#41, 0x1FF0000000F#41⟩, by decide, rfl, row_of_command _ 1#1 0x08#8 ignored 0x0#4 0xF#4 0x0#4 rfl⟩

theorem EncodingRow.cmdCrcStart (ignored : BitVec 28) : EncodingRow.Statement (.cmdCrcStart ignored) := fun _ =>
  ⟨⟨"CMD_CRC_START", 0x10800000001#41, 0x1FF0000000F#41⟩, by decide, rfl, row_of_command _ 1#1 0x08#8 ignored 0x1#4 0xF#4 0x1#4 rfl⟩

theorem EncodingRow.cmdFrameStart (ignored : BitVec 28) : EncodingRow.Statement (.cmdFrameStart ignored) := fun _ =>
  ⟨⟨"CMD_FRAME_START", 0x10800000002#41, 0x1FF0000000F#41⟩, by decide, rfl, row_of_command _ 1#1 0x08#8 ignored 0x2#4 0xF#4 0x2#4 rfl⟩

theorem EncodingRow.cmdChunkStart (ignored : BitVec 28) : EncodingRow.Statement (.cmdChunkStart ignored) := fun _ =>
  ⟨⟨"CMD_CHUNK_START", 0x10800000003#41, 0x1FF0000000F#41⟩, by decide, rfl, row_of_command _ 1#1 0x08#8 ignored 0x3#4 0xF#4 0x3#4 rfl⟩

theorem EncodingRow.cmdStreamStart (ignored : BitVec 28) : EncodingRow.Statement (.cmdStreamStart ignored) := fun _ =>
  ⟨⟨"CMD_STREAM_START", 0x10800000004#41, 0x1FF0000000F#41⟩, by decide, rfl, row_of_command _ 1#1 0x08#8 ignored 0x4#4 0xF#4 0x4#4 rfl⟩

theorem EncodingRow.cmdEnd (ignored : BitVec 28) : EncodingRow.Statement (.cmdEnd ignored) := fun _ =>
  ⟨⟨"CMD_END", 0x10800000005#41, 0x1FF0000000F#41⟩, by decide, rfl, row_of_command _ 1#1 0x08#8 ignored 0x5#4 0xF#4 0x5#4 rfl⟩

theorem EncodingRow.cmdAbort (ignored : BitVec 28) : EncodingRow.Statement (.cmdAbort ignored) := fun _ =>
  ⟨⟨"CMD_ABORT", 0x10800000006#41, 0x1FF0000000F#41⟩, by decide, rfl, row_of_command _ 1#1 0x08#8 ignored 0x6#4 0xF#4 0x6#4 rfl⟩

theorem EncodingRow.cmdClrIgn (ignored : BitVec 28) : EncodingRow.Statement (.cmdClrIgn ignored) := fun _ =>
  ⟨⟨"CMD_CLR_IGN", 0x10800000007#41, 0x1FF0000000F#41⟩, by decide, rfl, row_of_command _ 1#1 0x08#8 ignored 0x7#4 0xF#4 0x7#4 rfl⟩

theorem EncodingRow.cmdReserved (cmd : BitVec 4) (ignored : BitVec 28) : EncodingRow.Statement (.cmdReserved cmd ignored) := fun h =>
  ⟨⟨"CMD_RESERVED", 0x10800000008#41, 0x1FF00000008#41⟩, by decide, rfl, row_of_command _ 1#1 0x08#8 ignored cmd 0x8#4 0x8#4 (reserved_command_bits _ h)⟩

theorem EncodingRow.rdStatus (ignored : Word) : EncodingRow.Statement (.rdStatus ignored) := fun _ =>
  ⟨⟨"RD_STATUS", 0x00C00000000#41, 0x1FF00000000#41⟩, by decide, rfl, row_of_offset _ _ _ _⟩

theorem EncodingRow.wrStatus (value : Word) : EncodingRow.Statement (.wrStatus value) := fun _ =>
  ⟨⟨"WR_STATUS", 0x10C00000000#41, 0x1FF00000000#41⟩, by decide, rfl, row_of_offset _ _ _ _⟩

theorem EncodingRow.rdCrcState (ignored : Word) : EncodingRow.Statement (.rdCrcState ignored) := fun _ =>
  ⟨⟨"RD_CRC_STATE", 0x01000000000#41, 0x1FF00000000#41⟩, by decide, rfl, row_of_offset _ _ _ _⟩

theorem EncodingRow.wrCrcState (value : Word) : EncodingRow.Statement (.wrCrcState value) := fun _ =>
  ⟨⟨"WR_CRC_STATE", 0x11000000000#41, 0x1FF00000000#41⟩, by decide, rfl, row_of_offset _ _ _ _⟩

theorem EncodingRow.rdCrcValue (ignored : Word) : EncodingRow.Statement (.rdCrcValue ignored) := fun _ =>
  ⟨⟨"RD_CRC_VALUE", 0x01400000000#41, 0x1FF00000000#41⟩, by decide, rfl, row_of_offset _ _ _ _⟩

theorem EncodingRow.wrCrcValue (value : Word) : EncodingRow.Statement (.wrCrcValue value) := fun _ =>
  ⟨⟨"WR_CRC_VALUE", 0x11400000000#41, 0x1FF00000000#41⟩, by decide, rfl, row_of_offset _ _ _ _⟩

theorem EncodingRow.rdDin8 (ignored : Word) : EncodingRow.Statement (.rdDin8 ignored) := fun _ =>
  ⟨⟨"RD_DIN8", 0x01800000000#41, 0x1FF00000000#41⟩, by decide, rfl, row_of_offset _ _ _ _⟩

theorem EncodingRow.wrDin8 (byte : Byte) (ignored : BitVec 24) : EncodingRow.Statement (.wrDin8 byte ignored) := fun _ =>
  ⟨⟨"WR_DIN8", 0x11800000000#41, 0x1FF00000000#41⟩, by decide, rfl, row_of_offset _ _ _ _⟩

theorem EncodingRow.rdDin32 (ignored : Word) : EncodingRow.Statement (.rdDin32 ignored) := fun _ =>
  ⟨⟨"RD_DIN32", 0x01C00000000#41, 0x1FF00000000#41⟩, by decide, rfl, row_of_offset _ _ _ _⟩

theorem EncodingRow.wrDin32 (byte0 byte1 byte2 byte3 : Byte) : EncodingRow.Statement (.wrDin32 byte0 byte1 byte2 byte3) := fun _ =>
  ⟨⟨"WR_DIN32", 0x11C00000000#41, 0x1FF00000000#41⟩, by decide, rfl, row_of_offset _ _ _ _⟩

theorem EncodingRow.rdTag (ignored : Word) : EncodingRow.Statement (.rdTag ignored) := fun _ =>
  ⟨⟨"RD_TAG", 0x02000000000#41, 0x1FF00000000#41⟩, by decide, rfl, row_of_offset _ _ _ _⟩

theorem EncodingRow.wrTag (value : Word) : EncodingRow.Statement (.wrTag value) := fun _ =>
  ⟨⟨"WR_TAG", 0x12000000000#41, 0x1FF00000000#41⟩, by decide, rfl, row_of_offset _ _ _ _⟩

theorem EncodingRow.rdLen (ignored : Word) : EncodingRow.Statement (.rdLen ignored) := fun _ =>
  ⟨⟨"RD_LEN", 0x02400000000#41, 0x1FF00000000#41⟩, by decide, rfl, row_of_offset _ _ _ _⟩

theorem EncodingRow.wrLen (value : Word) : EncodingRow.Statement (.wrLen value) := fun _ =>
  ⟨⟨"WR_LEN", 0x12400000000#41, 0x1FF00000000#41⟩, by decide, rfl, row_of_offset _ _ _ _⟩

theorem EncodingRow.rdRxcrc (ignored : Word) : EncodingRow.Statement (.rdRxcrc ignored) := fun _ =>
  ⟨⟨"RD_RXCRC", 0x02800000000#41, 0x1FF00000000#41⟩, by decide, rfl, row_of_offset _ _ _ _⟩

theorem EncodingRow.wrRxcrc (value : Word) : EncodingRow.Statement (.wrRxcrc value) := fun _ =>
  ⟨⟨"WR_RXCRC", 0x12800000000#41, 0x1FF00000000#41⟩, by decide, rfl, row_of_offset _ _ _ _⟩

theorem EncodingRow.rdRem (ignored : Word) : EncodingRow.Statement (.rdRem ignored) := fun _ =>
  ⟨⟨"RD_REM", 0x02C00000000#41, 0x1FF00000000#41⟩, by decide, rfl, row_of_offset _ _ _ _⟩

theorem EncodingRow.wrRem (value : Word) : EncodingRow.Statement (.wrRem value) := fun _ =>
  ⟨⟨"WR_REM", 0x12C00000000#41, 0x1FF00000000#41⟩, by decide, rfl, row_of_offset _ _ _ _⟩

theorem EncodingRow.rdPos (ignored : Word) : EncodingRow.Statement (.rdPos ignored) := fun _ =>
  ⟨⟨"RD_POS", 0x03000000000#41, 0x1FF00000000#41⟩, by decide, rfl, row_of_offset _ _ _ _⟩

theorem EncodingRow.wrPos (value : Word) : EncodingRow.Statement (.wrPos value) := fun _ =>
  ⟨⟨"WR_POS", 0x13000000000#41, 0x1FF00000000#41⟩, by decide, rfl, row_of_offset _ _ _ _⟩

theorem EncodingRow.rdChunks (ignored : Word) : EncodingRow.Statement (.rdChunks ignored) := fun _ =>
  ⟨⟨"RD_CHUNKS", 0x03400000000#41, 0x1FF00000000#41⟩, by decide, rfl, row_of_offset _ _ _ _⟩

theorem EncodingRow.wrChunks (value : Word) : EncodingRow.Statement (.wrChunks value) := fun _ =>
  ⟨⟨"WR_CHUNKS", 0x13400000000#41, 0x1FF00000000#41⟩, by decide, rfl, row_of_offset _ _ _ _⟩

theorem EncodingRow.rdCstart (ignored : Word) : EncodingRow.Statement (.rdCstart ignored) := fun _ =>
  ⟨⟨"RD_CSTART", 0x03800000000#41, 0x1FF00000000#41⟩, by decide, rfl, row_of_offset _ _ _ _⟩

theorem EncodingRow.wrCstart (value : Word) : EncodingRow.Statement (.wrCstart value) := fun _ =>
  ⟨⟨"WR_CSTART", 0x13800000000#41, 0x1FF00000000#41⟩, by decide, rfl, row_of_offset _ _ _ _⟩

theorem EncodingRow.rdTagchk (ignored : Word) : EncodingRow.Statement (.rdTagchk ignored) := fun _ =>
  ⟨⟨"RD_TAGCHK", 0x03C00000000#41, 0x1FF00000000#41⟩, by decide, rfl, row_of_offset _ _ _ _⟩

theorem EncodingRow.wrTagchk (value : Word) : EncodingRow.Statement (.wrTagchk value) := fun _ =>
  ⟨⟨"WR_TAGCHK", 0x13C00000000#41, 0x1FF00000000#41⟩, by decide, rfl, row_of_offset _ _ _ _⟩

theorem EncodingRow.rdTagres (ignored : Word) : EncodingRow.Statement (.rdTagres ignored) := fun _ =>
  ⟨⟨"RD_TAGRES", 0x04000000000#41, 0x1FF00000000#41⟩, by decide, rfl, row_of_offset _ _ _ _⟩

theorem EncodingRow.wrTagres (value : Word) : EncodingRow.Statement (.wrTagres value) := fun _ =>
  ⟨⟨"WR_TAGRES", 0x14000000000#41, 0x1FF00000000#41⟩, by decide, rfl, row_of_offset _ _ _ _⟩

theorem EncodingRow.rdMisalignedOdd (off : Offset) (ignored : Word) : EncodingRow.Statement (.rdMisalignedOdd off ignored) := fun h =>
  ⟨⟨"RD_MISALIGNED", 0x00100000000#41, 0x10100000000#41⟩, by decide, rfl, row_of_offset_bits _ _ off 0x01#8 _ ignored (odd_bits _ h)⟩

theorem EncodingRow.rdMisalignedEven (off : Offset) (ignored : Word) : EncodingRow.Statement (.rdMisalignedEven off ignored) := fun h =>
  ⟨⟨"RD_MISALIGNED", 0x00200000000#41, 0x10300000000#41⟩, by decide, rfl, row_of_offset_bits _ _ off 0x03#8 _ ignored (even_bits _ h)⟩

theorem EncodingRow.wrMisalignedOdd (off : Offset) (ignored : Word) : EncodingRow.Statement (.wrMisalignedOdd off ignored) := fun h =>
  ⟨⟨"WR_MISALIGNED", 0x10100000000#41, 0x10100000000#41⟩, by decide, rfl, row_of_offset_bits _ _ off 0x01#8 _ ignored (odd_bits _ h)⟩

theorem EncodingRow.wrMisalignedEven (off : Offset) (ignored : Word) : EncodingRow.Statement (.wrMisalignedEven off ignored) := fun h =>
  ⟨⟨"WR_MISALIGNED", 0x10200000000#41, 0x10300000000#41⟩, by decide, rfl, row_of_offset_bits _ _ off 0x03#8 _ ignored (even_bits _ h)⟩

theorem EncodingRow.rdReserved (off : Offset) (ignored : Word) : EncodingRow.Statement (.rdReserved off ignored) := fun _ =>
  ⟨⟨"RD_RESERVED", 0x00000000000#41, 0x10000000000#41⟩, by decide, rfl, row_of_offset_bits _ _ off 0x00#8 _ ignored BitVec.and_zero⟩

theorem EncodingRow.wrReserved (off : Offset) (ignored : Word) : EncodingRow.Statement (.wrReserved off ignored) := fun _ =>
  ⟨⟨"WR_RESERVED", 0x10000000000#41, 0x10000000000#41⟩, by decide, rfl, row_of_offset_bits _ _ off 0x00#8 _ ignored BitVec.and_zero⟩

end Sys2Proof.Laws
end

