-- ==== Sys2Proof/Tests/Slice0.lean ====
section
/-! SUPPORT. Tests: what WellFormed refuses, a written-out word of every row decoded, one or two steps of every
instruction with the results of 95_test_vectors.md (the vector is named at each test), and a witness for the hypotheses
of every statement that has some. -/

namespace Sys2Proof.Tests

open Sys2Proof Sys2Proof.Machine

/-! ### Helpers -/

/-- A state in mode `m`, phase `p` and field count `f`, all else as at reset. -/
def inPhase (m : Mode) (p : Phase) (f : BitVec 3) : State := { State.reset with mode := m, phase := p, fcnt := f }

/-- A state in mode `m`, all else as at reset. -/
def inMode (m : Mode) : State := inPhase m .none 0#3

/-- A state with the tag `v`, all else as at reset. -/
def withTag (v : Word) : State := { State.reset with tag := v }

/-- A state in ERROR with ERR = `k`, all else as at reset. -/
def inError (k : ErrKind) : State := { State.reset with mode := .error, err := some k }

/-- A property of the next state an outcome answers. -/
def nextIs (o : Host.Outcome State Fault Refusal) (p : State → Bool) : Bool :=
  match o with
  | .next t => p t
  | .fault _ => false
  | .refused _ => false

/-- The read returns `v` and changes no block state. -/
def reads (i : Instr) (s : State) (v : Word) : Bool := nextIs (exec i s) (fun t => t == { s with rdata := s.rdata ++ [v] })

/-- The transaction is an ignored access: it sets IGN (with the ghost mark) and changes nothing else. -/
def ignores (i : Instr) (s : State) : Bool := nextIs (exec i s) (fun t => t == { s with ign := true, ignSeen := true })

/-! ### WellFormed: an ill-formed term for each check, and the first and last well-formed ones -/

theorem test_wellFormed_refuses_command_seven : Instr.wellFormed (.cmdReserved 0x7#4 0#28) = false := by decide
theorem test_wellFormed_refuses_even_as_odd_read : Instr.wellFormed (.rdMisalignedOdd 0x02#8 0#32) = false := by decide
theorem test_wellFormed_refuses_odd_as_even_read : Instr.wellFormed (.rdMisalignedEven 0x03#8 0#32) = false := by decide
theorem test_wellFormed_refuses_aligned_as_even_read : Instr.wellFormed (.rdMisalignedEven 0x04#8 0#32) = false := by decide
theorem test_wellFormed_refuses_even_as_odd_write : Instr.wellFormed (.wrMisalignedOdd 0xFE#8 0#32) = false := by decide
theorem test_wellFormed_refuses_odd_as_even_write : Instr.wellFormed (.wrMisalignedEven 0xFF#8 0#32) = false := by decide
theorem test_wellFormed_refuses_tagres_as_reserved_read : Instr.wellFormed (.rdReserved 0x40#8 0#32) = false := by decide
theorem test_wellFormed_refuses_misaligned_as_reserved_read : Instr.wellFormed (.rdReserved 0x45#8 0#32) = false := by decide
theorem test_wellFormed_refuses_id_as_reserved_write : Instr.wellFormed (.wrReserved 0x00#8 0#32) = false := by decide
theorem test_wellFormed_refuses_misaligned_as_reserved_write : Instr.wellFormed (.wrReserved 0x46#8 0#32) = false := by decide

/-! ### Decode: a word of every row of R74, its bits written out from R70 to R74 -/

theorem test_decode_rdId : decode 0x00000000000#41 = .rdId 0#32 := by decide
theorem test_decode_wrId : decode 0x10000000001#41 = .wrId 1#32 := by decide
theorem test_decode_rdVersion : decode 0x00400000000#41 = .rdVersion 0#32 := by decide
theorem test_decode_wrVersion : decode 0x10480000000#41 = .wrVersion 0x80000000#32 := by decide
theorem test_decode_rdCtrl : decode 0x00800000006#41 = .rdCtrl 6#32 := by decide
theorem test_decode_cmdNop : decode 0x10800000010#41 = .cmdNop 1#28 := by decide
theorem test_decode_cmdCrcStart : decode 0x108000000F1#41 = .cmdCrcStart 0xF#28 := by decide
theorem test_decode_cmdFrameStart : decode 0x10800000002#41 = .cmdFrameStart 0#28 := by decide
theorem test_decode_cmdChunkStart : decode 0x10800000003#41 = .cmdChunkStart 0#28 := by decide
theorem test_decode_cmdStreamStart : decode 0x10800000004#41 = .cmdStreamStart 0#28 := by decide
theorem test_decode_cmdEnd : decode 0x10880000005#41 = .cmdEnd 0x8000000#28 := by decide
theorem test_decode_cmdAbort : decode 0x10800000006#41 = .cmdAbort 0#28 := by decide
theorem test_decode_cmdClrIgn : decode 0x10800000007#41 = .cmdClrIgn 0#28 := by decide
theorem test_decode_cmdReserved_first : decode 0x10800000008#41 = .cmdReserved 8#4 0#28 := by decide
theorem test_decode_cmdReserved_last : decode 0x1080000003F#41 = .cmdReserved 15#4 3#28 := by decide
theorem test_decode_rdStatus : decode 0x00C00000000#41 = .rdStatus 0#32 := by decide
theorem test_decode_wrStatus : decode 0x10CFFFFFFFF#41 = .wrStatus 0xFFFFFFFF#32 := by decide
theorem test_decode_rdCrcState : decode 0x01000000000#41 = .rdCrcState 0#32 := by decide
theorem test_decode_wrCrcState : decode 0x110340BC6D9#41 = .wrCrcState 0x340BC6D9#32 := by decide
theorem test_decode_rdCrcValue : decode 0x01400000000#41 = .rdCrcValue 0#32 := by decide
theorem test_decode_wrCrcValue : decode 0x11400000001#41 = .wrCrcValue 1#32 := by decide
theorem test_decode_rdDin8 : decode 0x01800000000#41 = .rdDin8 0#32 := by decide
theorem test_decode_wrDin8 : decode 0x11800000141#41 = .wrDin8 0x41#8 1#24 := by decide
theorem test_decode_rdDin32 : decode 0x01C00000000#41 = .rdDin32 0#32 := by decide
theorem test_decode_wrDin32 : decode 0x11C52755374#41 = .wrDin32 0x52#8 0x75#8 0x53#8 0x74#8 := by decide
theorem test_decode_rdTag : decode 0x02000000000#41 = .rdTag 0#32 := by decide
theorem test_decode_wrTag : decode 0x12052755374#41 = .wrTag 0x52755374#32 := by decide
theorem test_decode_rdLen : decode 0x02400000000#41 = .rdLen 0#32 := by decide
theorem test_decode_wrLen : decode 0x12400000005#41 = .wrLen 5#32 := by decide
theorem test_decode_rdRxcrc : decode 0x02800000000#41 = .rdRxcrc 0#32 := by decide
theorem test_decode_wrRxcrc : decode 0x12800000001#41 = .wrRxcrc 1#32 := by decide
theorem test_decode_rdRem : decode 0x02C00000000#41 = .rdRem 0#32 := by decide
theorem test_decode_wrRem : decode 0x12C00000001#41 = .wrRem 1#32 := by decide
theorem test_decode_rdPos : decode 0x03000000000#41 = .rdPos 0#32 := by decide
theorem test_decode_wrPos : decode 0x13000000001#41 = .wrPos 1#32 := by decide
theorem test_decode_rdChunks : decode 0x03400000000#41 = .rdChunks 0#32 := by decide
theorem test_decode_wrChunks : decode 0x13400000001#41 = .wrChunks 1#32 := by decide
theorem test_decode_rdCstart : decode 0x03800000000#41 = .rdCstart 0#32 := by decide
theorem test_decode_wrCstart : decode 0x13800000001#41 = .wrCstart 1#32 := by decide
theorem test_decode_rdTagchk : decode 0x03C00000000#41 = .rdTagchk 0#32 := by decide
theorem test_decode_wrTagchk : decode 0x13C49454E44#41 = .wrTagchk 0x49454E44#32 := by decide
theorem test_decode_rdTagres : decode 0x04000000000#41 = .rdTagres 0#32 := by decide
theorem test_decode_wrTagres : decode 0x14000000001#41 = .wrTagres 1#32 := by decide
theorem test_decode_rdMisalignedOdd : decode 0x0FF00000000#41 = .rdMisalignedOdd 0xFF#8 0#32 := by decide
theorem test_decode_rdMisalignedEven : decode 0x00E00000000#41 = .rdMisalignedEven 0x0E#8 0#32 := by decide
theorem test_decode_wrMisalignedOdd : decode 0x11900000041#41 = .wrMisalignedOdd 0x19#8 0x41#32 := by decide
theorem test_decode_wrMisalignedEven : decode 0x10A00000001#41 = .wrMisalignedEven 0x0A#8 1#32 := by decide
theorem test_decode_rdReserved : decode 0x04400000000#41 = .rdReserved 0x44#8 0#32 := by decide
theorem test_decode_wrReserved : decode 0x1FC00000001#41 = .wrReserved 0xFC#8 1#32 := by decide

/-- Bits above bit 40 are no transaction word, however many bits are given (R70, R78). -/
theorem test_decodeTableWord_refuses_bit_41 : decodeTableWord 48 0x20000000000 = none := by decide
theorem test_decodeTableWord_takes_41_bits : decodeTableWord 41 0x10800000005 = some (.cmdEnd 0#28) := by decide

/-! ### The step -/

/-- The posted transaction is the next one performed: STATUS after reset (L2.7-a). -/
theorem test_step_withFetchWord_status :
    nextIs (step (State.reset.withFetchWord 41 0x00C00000000)) (fun t => t.rdata == [0x00000C00#32] && t.bus == []) = true := by
  decide
/-- Program P6, first line. -/
theorem test_step_withFetchWord_tagchk :
    nextIs (step (State.reset.withFetchWord 48 0x13C52753574)) (fun t => t.tagchk == 0x52753574#32) = true := by decide

/-! ### Reads (L2.1, L2.2, L2.3, L2.7) -/

/-- L2.1-a. -/
theorem test_rdId : reads (.rdId 0#32) State.reset 0x504E4743#32 = true := by decide
/-- L2.1-a. -/
theorem test_rdVersion : reads (.rdVersion 0#32) (inMode .error) 0x00010000#32 = true := by decide
/-- L2.1-e. -/
theorem test_rdCtrl : reads (.rdCtrl 0#32) (inMode .crc) 0#32 = true := by decide
/-- L2.7-a. -/
theorem test_rdStatus_reset : reads (.rdStatus 0#32) State.reset 0x00000C00#32 = true := by decide
/-- L2.5-u: MODE = ERROR, ERR = 6, PHASE = TAG, FCNT = 3, TAG = 0x0049454E. -/
theorem test_rdStatus_error :
    reads (.rdStatus 0#32)
      { inPhase .error .tag 3#3 with err := some .trailingBytes, tag := 0x0049454E#32 } 0x00033C66#32 = true := by decide
/-- L2.3-c. -/
theorem test_rdCrcState : reads (.rdCrcState 0#32) { inMode .done with crcState := 0x340BC6D9#32 } 0x340BC6D9#32 = true := by
  decide
/-- L2.3-c. -/
theorem test_rdCrcValue : reads (.rdCrcValue 0#32) { inMode .done with crcState := 0x340BC6D9#32 } 0xCBF43926#32 = true := by
  decide
/-- L2.1-e. -/
theorem test_rdDin8 : reads (.rdDin8 0#32) (inMode .crc) 0#32 = true := by decide
/-- L2.1-e. -/
theorem test_rdDin32 : reads (.rdDin32 0#32) (inMode .crc) 0#32 = true := by decide
/-- L2.5-p: the registers of a stream's end, each at a value of its own. -/
theorem test_rdTag : reads (.rdTag 0#32) (withTag 0x49454E44#32) 0x49454E44#32 = true := by decide
/-- L1.5-42. -/
theorem test_rdLen : reads (.rdLen 0#32) { inMode .done with len := 42#32, pos := 54#32 } 0x0000002A#32 = true := by decide
/-- L2.5-p. -/
theorem test_rdRxcrc : reads (.rdRxcrc 0#32) { inMode .done with rxcrc := 0xAE426082#32 } 0xAE426082#32 = true := by decide
/-- L2.5-e. -/
theorem test_rdRem : reads (.rdRem 0#32) { inPhase .error .data 0#3 with rem := 30#32, len := 42#32 } 30#32 = true := by decide
/-- P5. -/
theorem test_rdPos : reads (.rdPos 0#32) { inMode .error with pos := 65#32, cstart := 62#32 } 0x00000041#32 = true := by decide
/-- L2.5-p. -/
theorem test_rdChunks : reads (.rdChunks 0#32) { inMode .done with chunks := 2#32 } 2#32 = true := by decide
/-- P5. -/
theorem test_rdCstart : reads (.rdCstart 0#32) { inMode .error with pos := 65#32, cstart := 62#32 } 0x0000003E#32 = true := by
  decide
/-- L2.2-x. -/
theorem test_rdTagchk : reads (.rdTagchk 0#32) { State.reset with tagchk := 0x41424344#32 } 0x41424344#32 = true := by decide
/-- L2.2-l: 0x5B is no letter. -/
theorem test_rdTagres_first_byte : reads (.rdTagres 0#32) { State.reset with tagchk := 0x5B755374#32 } 0x3A#32 = true := by decide
/-- L2.2-o: the third byte is no letter. -/
theorem test_rdTagres_third_byte : reads (.rdTagres 0#32) { State.reset with tagchk := 0x52753574#32 } 0x2E#32 = true := by decide
/-- L2.1-g. -/
theorem test_rdMisalignedOdd : reads (.rdMisalignedOdd 0x01#8 0#32) State.reset 0#32 = true := by decide
/-- L2.1-g. -/
theorem test_rdMisalignedEven : reads (.rdMisalignedEven 0x0E#8 0#32) State.reset 0#32 = true := by decide
/-- L2.1-i. -/
theorem test_rdReserved : reads (.rdReserved 0xFC#8 0#32) State.reset 0#32 = true := by decide

/-! ### Ignored writes (L2.1) -/

/-- L2.1-d. -/
theorem test_wrId : ignores (.wrId 0#32) State.reset = true := by decide
/-- L2.1-d. -/
theorem test_wrVersion : ignores (.wrVersion 0#32) State.reset = true := by decide
/-- L2.1-c. -/
theorem test_wrStatus : ignores (.wrStatus 0xFFFFFFFF#32) State.reset = true := by decide
/-- R103. -/
theorem test_wrCrcValue : ignores (.wrCrcValue 1#32) (inMode .crc) = true := by decide
/-- L2.1-b. -/
theorem test_wrLen : ignores (.wrLen 5#32) State.reset = true := by decide
/-- R103. -/
theorem test_wrRxcrc : ignores (.wrRxcrc 1#32) (inMode .done) = true := by decide
/-- R103. -/
theorem test_wrRem : ignores (.wrRem 1#32) (inMode .done) = true := by decide
/-- R103. -/
theorem test_wrPos : ignores (.wrPos 1#32) (inMode .frame) = true := by decide
/-- R103. -/
theorem test_wrChunks : ignores (.wrChunks 1#32) (inMode .error) = true := by decide
/-- R103. -/
theorem test_wrCstart : ignores (.wrCstart 1#32) State.reset = true := by decide
/-- R103. -/
theorem test_wrTagres : ignores (.wrTagres 1#32) State.reset = true := by decide
/-- L2.1-f. -/
theorem test_wrMisalignedOdd : ignores (.wrMisalignedOdd 0x19#8 0x41#32) (inMode .crc) = true := by decide
/-- R107: a write to CTRL + 2 is no command. -/
theorem test_wrMisalignedEven : ignores (.wrMisalignedEven 0x0A#8 1#32) State.reset = true := by decide
/-- L2.1-h. -/
theorem test_wrReserved : ignores (.wrReserved 0x80#8 1#32) State.reset = true := by decide
/-- L2.1-k. -/
theorem test_cmdReserved : ignores (.cmdReserved 9#4 0#28) State.reset = true := by decide

/-! ### Writes by mode (L2.2, L2.3, L2.4, L2.5) -/

/-- L2.3-r. -/
theorem test_wrCrcState_idle :
    nextIs (exec (.wrCrcState 0x12345678#32) State.reset) (fun t => t == { State.reset with crcState := 0x12345678#32 }) = true := by
  decide
/-- L2.3-t. -/
theorem test_wrCrcState_chunk : ignores (.wrCrcState 0#32) (inPhase .chunk .len 0#3) = true := by decide
/-- L2.5-n: a host write to TAG in DONE clears HDRV. -/
theorem test_wrTag_done :
    nextIs (exec (.wrTag 0x30303030#32) { inPhase .done .bound 0#3 with hdrv := true, tag := 0x49454E44#32 })
      (fun t => t.tag == 0x30303030#32 && !t.hdrv && !t.ign && statusWord t == 0x00006805#32) = true := by decide
/-- L2.4-g. -/
theorem test_wrTag_frame : ignores (.wrTag 0x49454E44#32) { inMode .frame with tag := 0x52755374#32 } = true := by decide
/-- L2.2-v. -/
theorem test_wrTagchk_chunk :
    nextIs (exec (.wrTagchk 0x52755374#32) (inPhase .chunk .len 0#3))
      (fun t => t == { inPhase .chunk .len 0#3 with tagchk := 0x52755374#32 }) = true := by decide

/-! ### Commands (L2.1, L2.3, L2.4, L2.5) -/

/-- L2.1-m. -/
theorem test_cmdNop : nextIs (exec (.cmdNop 1#28) (inMode .crc)) (fun t => t == inMode .crc) = true := by decide
/-- L2.3-u: a restart from DONE reseeds. -/
theorem test_cmdCrcStart_done :
    nextIs (exec (.cmdCrcStart 0#28) { inMode .done with crcState := 0x174841BC#32, pos := 1#32 })
      (fun t => t == inMode .crc) = true := by decide
/-- L2.1-v: a start from ERROR clears ERR. -/
theorem test_cmdCrcStart_error :
    nextIs (exec (.cmdCrcStart 0#28) (inError .invalidTagBytes)) (fun t => statusWord t == 0x00000C01#32) = true := by decide
/-- L2.4-m: the engine holds crc_update(CRC_INIT, "RuSt"). -/
theorem test_cmdFrameStart_valid :
    nextIs (exec (.cmdFrameStart 0#28) (withTag 0x52755374#32))
      (fun t => t.mode == .frame && t.crcState == 0x2B7BF6C3#32 && t.len == 0#32 && statusWord t == 0x00000C02#32) = true := by
  decide +kernel
/-- L2.4-d. -/
theorem test_cmdFrameStart_invalid :
    nextIs (exec (.cmdFrameStart 0#28) (withTag 0x52753574#32))
      (fun t => statusWord t == 0x00000C26#32 && t.crcState == 0xFFFFFFFF#32 && t.tag == 0x52753574#32) = true := by decide
/-- L2.5-f. -/
theorem test_cmdChunkStart :
    nextIs (exec (.cmdChunkStart 0#28) { withTag 0x72755374#32 with rem := 7#32, chunks := 3#32 })
      (fun t => statusWord t == 0x00002C03#32 && t.tag == 0#32 && t.rem == 0#32 && t.chunks == 0#32) = true := by decide
/-- L2.1-p, with CHUNK_START: a start while a function is active is ignored. -/
theorem test_cmdChunkStart_active : ignores (.cmdChunkStart 0#28) (inMode .crc) = true := by decide
/-- L1.2-e and R202: a new stream sets SIGMATCH. -/
theorem test_cmdStreamStart :
    nextIs (exec (.cmdStreamStart 0#28) { inPhase .error .sig 0#3 with err := some .badSignature, sigmatch := false })
      (fun t => statusWord t == 0x00001C04#32) = true := by decide
/-- L2.1-p. -/
theorem test_cmdStreamStart_active : ignores (.cmdStreamStart 0#28) (inMode .crc) = true := by decide
/-- L2.5-g: END inside the tag of a chunk. -/
theorem test_cmdEnd_chunk :
    nextIs (exec (.cmdEnd 0#28) { inPhase .chunk .tag 2#3 with tag := 0x00004945#32, pos := 6#32 })
      (fun t => statusWord t == 0x00023C36#32 && t.pos == 6#32) = true := by decide
/-- L2.5-u: END after seven trailing bytes. -/
theorem test_cmdEnd_stream :
    nextIs (exec (.cmdEnd 0#28) { inPhase .stream .tag 3#3 with tag := 0x0049454E#32 })
      (fun t => statusWord t == 0x00033C66#32) = true := by decide
/-- L2.5-aa: ABORT in the DATA phase clears HDRV and keeps the registers. -/
theorem test_cmdAbort :
    nextIs (exec (.cmdAbort 0#28)
        { inPhase .stream .data 0#3 with hdrv := true, tag := 0x52755374#32, len := 42#32, pos := 16#32, cstart := 8#32 })
      (fun t => statusWord t == 0x00000C00#32 && t.tag == 0x52755374#32 && t.len == 42#32 && t.pos == 16#32
        && t.cstart == 8#32) = true := by decide
/-- R115: IGN stays. -/
theorem test_cmdAbort_keeps_ign : nextIs (exec (.cmdAbort 0#28) { inMode .crc with ign := true }) (fun t => t.ign) = true := by
  decide
/-- L2.1-u: CLR_IGN in ERROR keeps the error. -/
theorem test_cmdClrIgn :
    nextIs (exec (.cmdClrIgn 0#28) { inError .invalidTagBytes with ign := true }) (fun t => statusWord t == 0x00000C26#32) = true := by
  decide

/-! ### Data input (L2.1, L2.3, L2.4, L2.5) -/

/-- L2.1-t: bits 31:8 of WDATA play no part. -/
theorem test_wrDin8_crc :
    nextIs (exec (.wrDin8 0x41#8 1#24) (inMode .crc)) (fun t => t.crcState == 0x2C266174#32 && t.pos == 1#32 && !t.ign) = true := by
  decide
/-- L2.4-k: the 2^32-th payload byte. -/
theorem test_wrDin8_length_overflow :
    nextIs (exec (.wrDin8 0x41#8 0#24)
        { inMode .frame with len := 0xFFFFFFFF#32, pos := 0xFFFFFFFF#32, crcState := 0x2B7BF6C3#32 })
      (fun t => statusWord t == 0x00000C96#32 && t.len == 0xFFFFFFFF#32 && t.crcState == 0x2B7BF6C3#32) = true := by decide
/-- L2.4-l: the first byte is taken, the second overflows, the last two are ignored accesses. -/
theorem test_wrDin32_length_overflow :
    nextIs (exec (.wrDin32 0x41#8 0x42#8 0x43#8 0x44#8)
        { inMode .frame with len := 0xFFFFFFFE#32, pos := 0xFFFFFFFE#32, crcState := 0x2B7BF6C3#32 })
      (fun t => statusWord t == 0x00000D96#32 && t.len == 0xFFFFFFFF#32 && t.crcState == 0x039D99FA#32) = true := by decide
/-- L2.5-i: the tag error inside a DIN32 write. -/
theorem test_wrDin32_tag_error :
    nextIs (exec (.wrDin32 0x52#8 0x31#8 0x32#8 0x32#8) { inPhase .chunk .tag 0#3 with len := 1#32, pos := 4#32 })
      (fun t => statusWord t == 0x00003C26#32 && t.pos == 8#32 && t.tag == 0x52313232#32 && t.crcState == 0xBFB16D9C#32)
      = true := by decide +kernel

/-! ### The shared operations (L1.2, L2.3, L2.5) -/

/-- The check value of R150 (L2.3-c). -/
theorem test_crc32_check : crc32 [0x31#8, 0x32#8, 0x33#8, 0x34#8, 0x35#8, 0x36#8, 0x37#8, 0x38#8, 0x39#8] = 0xCBF43926#32 := by
  decide +kernel
/-- The table entries named after L2.3-k. -/
theorem test_crcByte_table : crcByte 0#32 0x01#8 = 0x77073096#32 ∧ crcByte 0#32 0x80#8 = 0xEDB88320#32 := by decide
/-- L1.2-c, before its END (which adds IGN): a wrong signature gets its verdict at the eighth byte. -/
theorem test_push_bad_signature :
    statusWord (push 0x0A#8 { inPhase .stream .sig 7#3 with sigmatch := false, pos := 7#32 }) = 0x00001456#32 := by
  decide
/-- L1.2-a: the eighth byte of the signature leads to BOUND. -/
theorem test_push_signature : statusWord (push 0x0A#8 (inPhase .stream .sig 7#3)) = 0x00006C04#32 := by decide
/-- L2.5-c: a complete header with LEN = 0 leads to CRC. -/
theorem test_push_empty_header :
    statusWord (push 0x44#8 { inPhase .chunk .tag 3#3 with tag := 0x0049454E#32 }) = 0x00005E03#32 := by decide
/-- L2.5-b: the last checksum byte of the empty IEND chunk. -/
theorem test_push_checksum_match :
    statusWord (push 0x82#8
      { inPhase .chunk .crc 3#3 with hdrv := true, tag := 0x49454E44#32, crcState := 0x51BD9F7D#32, rxcrc := 0x00AE4260#32 })
      = 0x00006E05#32 := by decide
/-- L2.5-y: the same with 0x83. -/
theorem test_push_checksum_mismatch :
    statusWord (push 0x83#8
      { inPhase .stream .crc 3#3 with hdrv := true, tag := 0x49454E44#32, crcState := 0x51BD9F7D#32, rxcrc := 0x00AE4260#32 })
      = 0x00005E46#32 := by decide
/-- R80: a group of four bytes, then one byte (L1.5-5). -/
theorem test_asmPushb : asmPushb [0x54#8, 0x68#8, 0x69#8, 0x73#8, 0x20#8] = [0x11C54686973#41, 0x11800000020#41] := by decide
/-- R185: `F_IEND` of 95_test_vectors.md. -/
theorem test_frame_iend :
    frame 0x49454E44#32 [] = [0#8, 0#8, 0#8, 0#8, 0x49#8, 0x45#8, 0x4E#8, 0x44#8, 0xAE#8, 0x42#8, 0x60#8, 0x82#8] := by decide +kernel
/-- L1.4-a, L1.4-c, L1.4-f. -/
theorem test_fromString :
    fromString ['R', 'u', 'S', 't'] = .ok 0x52755374#32 ∧ fromString ['R', 'u', 'S'] = .error .invalidTagLength
      ∧ fromString ['R', 'u', '5', 't'] = .error .invalidTagBytes := by decide
/-- L1.4-h and L1.4-i: the length is counted in characters. -/
theorem test_fromString_counts_characters :
    fromString ['Ä', 'B', 'C', 'D'] = .error .invalidTagBytes ∧ fromString ['Ä', 'Ö'] = .error .invalidTagLength := by decide
/-- L2.6, code 8: the payload FF is no UTF-8; C3 84 is one character. -/
theorem test_dataAsText :
    dataAsText ⟨1#32, 0x52755374#32, [0xFF#8], 0#32⟩ = .error .invalidUtf8
      ∧ dataAsText ⟨2#32, 0x52755374#32, [0xC3#8, 0x84#8], 0#32⟩ = .ok ['Ä'] := by decide

/-! ### Witnesses: for each statement with hypotheses, states and operands that meet them, clause by clause -/

/-- A stream at the start of its payload (L2.5-ab), the byte 0x54 coming next. -/
def inData : State :=
  { inPhase .stream .data 0#3 with
    hdrv := true, tag := 0x52755374#32, len := 42#32, rem := 42#32, pos := 16#32, cstart := 8#32,
    crcState := 0x2B7BF6C3#32, bus := [.transaction 0x11800000054#41] }

/-- A valid record: the empty IEND chunk (`F_IEND`). -/
def iend : Record := ⟨0#32, 0x49454E44#32, [], 0xAE426082#32⟩

theorem witness_DecodeOfEncodeIsTheInstruction :
    Instr.wellFormed (.cmdReserved 0x8#4 0#28) = true ∧ Instr.wellFormed (.cmdReserved 0xF#4 0#28) = true
      ∧ Instr.wellFormed (.rdMisalignedOdd 0xFF#8 0#32) = true ∧ Instr.wellFormed (.rdMisalignedEven 0x02#8 0#32) = true
      ∧ Instr.wellFormed (.wrMisalignedOdd 0x01#8 0#32) = true ∧ Instr.wellFormed (.wrMisalignedEven 0xFE#8 0#32) = true
      ∧ Instr.wellFormed (.rdReserved 0x44#8 0#32) = true ∧ Instr.wellFormed (.wrReserved 0xFC#8 0#32) = true
      ∧ Instr.wellFormed (.wrDin32 0#8 0#8 0#8 0#8) = true := by decide

theorem witness_StepPerformsTheDecodedTransaction :
    (State.reset.withFetchWord 41 0x00C00000000).bus = .transaction 0x00C00000000#41 :: [] := by decide

/-- The first and last offset of each clause. -/
theorem witness_MisalignedAndReservedReadsGiveZero :
    (0x01#8).getLsbD 0 = true ∧ (0xFF#8).getLsbD 0 = true
      ∧ ((0x02#8).getLsbD 0 = false ∧ (0x02#8).getLsbD 1 = true) ∧ ((0xFE#8).getLsbD 0 = false ∧ (0xFE#8).getLsbD 1 = true)
      ∧ ((0x44#8).getLsbD 0 = false ∧ (0x44#8).getLsbD 1 = false ∧ 0x44#8 ≤ 0x44#8)
      ∧ ((0xFC#8).getLsbD 0 = false ∧ (0xFC#8).getLsbD 1 = false ∧ 0x44#8 ≤ 0xFC#8) := by decide

theorem witness_ReadsHaveNoSideEffect :
    (0x00C00000000#41).getLsbD 40 = false ∧ (0x0FFFFFFFFFF#41).getLsbD 40 = false := by decide

/-- The offsets are those of the reads; the first and last reserved command. -/
theorem witness_MisalignedAndReservedWritesAreIgnored :
    (0x01#8).getLsbD 0 = true ∧ (0xFF#8).getLsbD 0 = true
      ∧ ((0x02#8).getLsbD 0 = false ∧ (0x02#8).getLsbD 1 = true) ∧ ((0xFE#8).getLsbD 0 = false ∧ (0xFE#8).getLsbD 1 = true)
      ∧ ((0x44#8).getLsbD 0 = false ∧ (0x44#8).getLsbD 1 = false ∧ 0x44#8 ≤ 0x44#8)
      ∧ ((0xFC#8).getLsbD 0 = false ∧ (0xFC#8).getLsbD 1 = false ∧ 0x44#8 ≤ 0xFC#8)
      ∧ 0x8#4 ≤ 0x8#4 ∧ 0x8#4 ≤ 0xF#4 := by decide

/-- One state for each case of the conclusion. -/
theorem witness_EndFinishesEachMode :
    (∀ m ∈ [Mode.idle, .crc, .frame, .chunk, .done, .error], (inMode m).mode = .stream → (inMode m).phase ≠ .none)
      ∧ (∀ p ∈ [Phase.sig, .len, .tag, .data, .crc, .bound],
          (inPhase .stream p 0#3).mode = .stream → (inPhase .stream p 0#3).phase ≠ .none) := by decide

/-- An instruction that leads from STREAM to DONE, and one that raises TrailingBytes. -/
theorem witness_EndFinishesEachMode_only :
    (∃ t, exec (.cmdEnd 0#28) (inPhase .stream .bound 0#3) = .next t ∧ (inPhase .stream .bound 0#3).mode = .stream
        ∧ t.mode = .done)
      ∧ (∃ t, exec (.cmdEnd 0#28) (inPhase .stream .tag 3#3) = .next t ∧ t.err = some .trailingBytes
        ∧ (inPhase .stream .tag 3#3).err ≠ some .trailingBytes) := ⟨⟨_, rfl, by decide⟩, ⟨_, rfl, by decide⟩⟩

/-- An instruction that clears IGN. -/
theorem witness_NopAbortAndClrIgn :
    ∃ t, exec (.cmdClrIgn 0#28) { State.reset with ign := true } = .next t
      ∧ ({ State.reset with ign := true } : State).ign = true ∧ t.ign = false := ⟨_, rfl, by decide⟩

/-- A group whose first, second and third byte raises LengthOverflow, by what LEN still counts. -/
theorem witness_Din32IsFourDin8 :
    ((push 0#8 { inMode .frame with len := 0xFFFFFFFF#32 }).mode = .error)
      ∧ ((push 0#8 (push 0#8 { inMode .frame with len := 0xFFFFFFFE#32 })).mode = .error)
      ∧ ((push 0#8 (push 0#8 (push 0#8 { inMode .frame with len := 0xFFFFFFFD#32 }))).mode = .error) := by decide +kernel

theorem witness_BytesInCrcAndFrameModeAndOutsideAFunction :
    (inMode .crc).mode = .crc
      ∧ (∀ n ∈ [0#32, 0xFFFFFFFE#32, 0xFFFFFFFF#32],
          ({ inMode .frame with len := n, pos := n } : State).mode = .frame
            ∧ ({ inMode .frame with len := n, pos := n } : State).pos = ({ inMode .frame with len := n, pos := n } : State).len)
      ∧ (∀ m ∈ [Mode.idle, .done, .error], (inMode m).mode = .idle ∨ (inMode m).mode = .done ∨ (inMode m).mode = .error) := by
  simp [inMode, inPhase]

/-- The first, seventh and eighth byte. -/
theorem witness_BytesInTheSigPhase :
    ∀ f ∈ [0#3, 6#3, 7#3], (inPhase .stream .sig f).mode = .stream ∧ (inPhase .stream .sig f).phase = .sig := by
  simp [inPhase]

/-- A byte at BOUND, and the first, third and fourth length byte in both modes. -/
theorem witness_BytesAtBoundAndInTheLenPhase :
    ∀ m ∈ [Mode.chunk, .stream], ∀ f ∈ [0#3, 2#3, 3#3],
      (inPhase .stream .bound 0#3).mode = .stream ∧ (inPhase .stream .bound 0#3).phase = .bound
        ∧ ((inPhase m .len f).mode = .chunk ∨ (inPhase m .len f).mode = .stream) ∧ (inPhase m .len f).phase = .len := by
  simp [inPhase]

/-- A deframer with LEN = `l`, TAG = `t` and REM = `r`. -/
def deframing (m : Mode) (p : Phase) (f : BitVec 3) (l t r : Word) : State :=
  { inPhase m p f with len := l, tag := t, rem := r }

/-- The third byte, and the fourth byte of a valid tag with LEN 0 and 1 and of an invalid tag (the byte 0x74). -/
theorem witness_BytesInTheTagPhase :
    ∀ m ∈ [Mode.chunk, .stream], ∀ f ∈ [2#3, 3#3], ∀ l ∈ [0#32, 1#32], ∀ t ∈ [0x00527553#32, 0x00527535#32],
      ((deframing m .tag f l t 0#32).mode = .chunk ∨ (deframing m .tag f l t 0#32).mode = .stream)
        ∧ (deframing m .tag f l t 0#32).phase = .tag := by
  simp [deframing, inPhase]

/-- The invariant that says HDRV = 0 in the TAG phase holds in one of its states. -/
theorem witness_BytesInTheTagPhase_hdrv : StatusInv (deframing .stream .tag 3#3 1#32 0x00527535#32 0#32) := by
  refine ⟨by decide, by decide, by decide, nofun, nofun⟩

/-- The last payload byte, and one before it. -/
theorem witness_BytesInTheDataPhase :
    ∀ m ∈ [Mode.chunk, .stream], ∀ r ∈ [1#32, 2#32, 0xFFFFFFFF#32],
      ((deframing m .data 0#3 r 0x52755374#32 r).mode = .chunk ∨ (deframing m .data 0#3 r 0x52755374#32 r).mode = .stream)
        ∧ (deframing m .data 0#3 r 0x52755374#32 r).phase = .data
        ∧ 1#32 ≤ (deframing m .data 0#3 r 0x52755374#32 r).rem := by
  simp [deframing, inPhase]

/-- A deframer at a byte of the empty IEND chunk's checksum. -/
def inChecksum (m : Mode) (f : BitVec 3) : State :=
  { inPhase m .crc f with crcState := 0x51BD9F7D#32, rxcrc := 0x00AE4260#32 }

/-- The third byte, and the fourth byte of a right checksum (0x82) and a wrong one. -/
theorem witness_BytesInTheCrcPhase :
    ∀ m ∈ [Mode.chunk, .stream], ∀ f ∈ [2#3, 3#3],
      ((inChecksum m f).mode = .chunk ∨ (inChecksum m f).mode = .stream) ∧ (inChecksum m f).phase = .crc := by
  simp [inChecksum, inPhase]

/-- The invariant that says HDRV = 1 in the CRC phase holds in one of its states. -/
theorem witness_BytesInTheCrcPhase_hdrv :
    ProgressInv { inChecksum .stream 3#3 with hdrv := true, tag := 0x49454E44#32, cstart := 8#32, pos := 19#32 } := by
  refine ⟨fun _ => ?_, nofun, nofun⟩
  exact ⟨nofun, nofun, nofun, nofun, nofun, fun _ => by decide, nofun, fun _ _ => rfl⟩

theorem witness_UnreachedStatesFollowThePseudocode :
    ((inMode .chunk).phase = .none ∧ ((inMode .chunk).mode = .chunk ∨ (inMode .chunk).mode = .stream))
      ∧ ((inMode .stream).phase = .none ∧ (inMode .stream).mode = .stream)
      ∧ ((inPhase .chunk .data 0#3).phase = .data ∧ (inPhase .chunk .data 0#3).rem = 0#32
          ∧ ((inPhase .chunk .data 0#3).mode = .chunk ∨ (inPhase .chunk .data 0#3).mode = .stream))
      ∧ (({ inMode .frame with pos := 0xFFFFFFFF#32 } : State).mode = .frame
          ∧ ({ inMode .frame with pos := 0xFFFFFFFF#32 } : State).pos = 0xFFFFFFFF#32
          ∧ ({ inMode .frame with pos := 0xFFFFFFFF#32 } : State).len ≠ 0xFFFFFFFF#32)
      ∧ ((inPhase .chunk .sig 7#3).mode = .chunk
          ∧ ((inPhase .chunk .sig 7#3).phase = .sig ∨ (inPhase .chunk .sig 7#3).phase = .bound))
      ∧ ((inPhase .chunk .bound 0#3).mode = .chunk
          ∧ ((inPhase .chunk .bound 0#3).phase = .sig ∨ (inPhase .chunk .bound 0#3).phase = .bound)) := by decide

theorem witness_AcceptanceTable :
    accepted .crc (.cmdFrameStart 0#28) = false ∧ accepted .idle (.wrDin32 0#8 0#8 0#8 0#8) = false
      ∧ accepted .idle (.cmdFrameStart 0#28) = true
      ∧ ∀ a b c d : Byte, Instr.cmdFrameStart 0#28 ≠ .wrDin32 a b c d := ⟨by decide, by decide, by decide, nofun⟩

theorem witness_EveryTransactionCompletesAndIgnIsSticky :
    (({ State.reset with ign := true } : State).ign = true ∧ ∀ g : BitVec 28, Instr.cmdAbort 0#28 ≠ .cmdClrIgn g)
      ∧ ({ State.reset with ignSeen := true } : State).ignSeen = true
      ∧ (State.reset.ign = false ∧ ∃ t : State, exec (.wrId 0#32) State.reset = .next t ∧ t.ign = true) :=
  ⟨⟨rfl, nofun⟩, rfl, rfl, _, rfl, rfl⟩

theorem witness_IgnoredBitsPlayNoPart :
    (0x00000005#32).extractLsb' 0 4 = (0xFFFFFFF5#32).extractLsb' 0 4
      ∧ (0x00000041#32).extractLsb' 0 8 = (0xFFFFFF41#32).extractLsb' 0 8 := by decide

/-- BadSignature raised by a byte, from a state that meets R47's invariants. -/
theorem witness_ErrorsAreRaisedWhereTheTableSays_signature :
    StatusInv (inPhase .stream .sig 7#3) ∧ ∃ t, exec (.wrDin8 0#8 0#24) (inPhase .stream .sig 7#3) = .next t
      ∧ t.err = some .badSignature ∧ (inPhase .stream .sig 7#3).err ≠ some .badSignature :=
  ⟨⟨by decide, by decide, by decide, nofun, nofun⟩, _, rfl, by decide⟩

/-- One transaction for each kind the block raises. -/
theorem witness_ErrorsAreRaisedWhereTheTableSays :
    (∃ t, exec (.cmdFrameStart 0#28) State.reset = .next t ∧ t.err = some .invalidTagBytes
        ∧ State.reset.err ≠ some .invalidTagBytes)
      ∧ (∃ t, exec (.cmdEnd 0#28) (inPhase .chunk .len 0#3) = .next t ∧ t.err = some .unexpectedEof
        ∧ (inPhase .chunk .len 0#3).err ≠ some .unexpectedEof)
      ∧ (∃ t, exec (.wrDin8 1#8 0#24) (inPhase .chunk .crc 3#3) = .next t ∧ t.err = some .checksumMismatch
        ∧ (inPhase .chunk .crc 3#3).err ≠ some .checksumMismatch)
      ∧ (∃ t, exec (.cmdEnd 0#28) (inPhase .stream .sig 0#3) = .next t ∧ t.err = some .badSignature
        ∧ (inPhase .stream .sig 0#3).err ≠ some .badSignature)
      ∧ (∃ t, exec (.cmdEnd 0#28) (inPhase .stream .len 1#3) = .next t ∧ t.err = some .trailingBytes
        ∧ (inPhase .stream .len 1#3).err ≠ some .trailingBytes)
      ∧ (∃ t, exec (.wrDin8 0#8 0#24) { inMode .frame with len := 0xFFFFFFFF#32 } = .next t
        ∧ t.err = some .lengthOverflow ∧ (inMode .frame).err ≠ some .lengthOverflow) :=
  ⟨⟨_, rfl, by decide⟩, ⟨_, rfl, by decide⟩, ⟨_, rfl, by decide⟩, ⟨_, rfl, by decide⟩, ⟨_, rfl, by decide⟩,
    ⟨_, rfl, by decide⟩⟩

theorem witness_ErrorModeKeepsTheError :
    (inError .invalidTagBytes).mode = .error
      ∧ ∀ i ∈ [Instr.wrTag 1#32, .wrCrcState 1#32, .wrDin8 1#8 0#24], ∀ g : BitVec 28,
          i ≠ .cmdCrcStart g ∧ i ≠ .cmdFrameStart g ∧ i ≠ .cmdChunkStart g ∧ i ≠ .cmdStreamStart g ∧ i ≠ .cmdAbort g :=
  ⟨rfl, by simp⟩

/-- A transaction that changes the register, for each clause. -/
theorem witness_RegistersAreWrittenOnlyBy :
    (∃ t, exec (.wrTagchk 1#32) State.reset = .next t ∧ t.tagchk ≠ State.reset.tagchk)
      ∧ (∃ t, exec (.wrDin8 1#8 0#24) (inPhase .chunk .crc 0#3) = .next t ∧ t.rxcrc ≠ (inPhase .chunk .crc 0#3).rxcrc)
      ∧ (∃ t, exec (.wrTag 1#32) State.reset = .next t ∧ t.tag ≠ State.reset.tag)
      ∧ (∃ t, exec (.wrDin8 1#8 0#24) (inPhase .chunk .len 0#3) = .next t ∧ t.len ≠ (inPhase .chunk .len 0#3).len)
      ∧ (∃ t, exec (.wrDin8 1#8 0#24) (inMode .crc) = .next t ∧ t.pos ≠ (inMode .crc).pos)
      ∧ (∃ t, exec (.wrCrcState 1#32) State.reset = .next t ∧ t.crcState ≠ State.reset.crcState) :=
  ⟨⟨_, rfl, by decide⟩, ⟨_, rfl, by decide⟩, ⟨_, rfl, by decide⟩, ⟨_, rfl, by decide⟩, ⟨_, rfl, by decide⟩,
    ⟨_, rfl, by decide⟩⟩

theorem witness_ResetEventGivesTheResetState :
    ({ inData with bus := [.platform .reset] } : State).bus = .platform .reset :: [] := rfl

theorem witness_RunsEndAndWaitStatesAreInvisible :
    let s : State := { State.reset with bus := [.platform .waitState, .transaction 0x10800000001#41, .platform .reset] }
    SingleMaster s ∧ DeviceOrdered s ∧ BusCompletes s := by decide

/-- The first and the last address of the window, and the next one above it. -/
theorem witness_WindowAddresses :
    (Config.base ≤ Config.base ∧ Config.base < Config.base + 256)
      ∧ (Config.base ≤ Config.base + 255 ∧ Config.base + 255 < Config.base + 256)
      ∧ (Config.base + 256 < Config.base ∨ Config.base + 256 ≤ Config.base + 256) := by
  omega

theorem statusInv_inData : StatusInv inData := by
  refine ⟨by decide, by decide, by decide, fun _ => by decide, fun _ => by decide⟩

theorem witness_StepKeepsStatusInv : ∃ t : State, StatusInv inData ∧ step inData = .next t := ⟨_, statusInv_inData, rfl⟩

theorem witness_StepKeepsProgressInv :
    ∃ t : State, StatusInv inData ∧ ProgressInv inData ∧ step inData = .next t := by
  refine ⟨_, statusInv_inData, ⟨fun _ => ?_, nofun, nofun⟩, rfl⟩
  refine ⟨nofun, nofun, nofun, nofun, fun _ => by decide, nofun, nofun, fun _ _ => rfl⟩

theorem witness_CrcDetectsOneChangedByte : (0x00#8 : Byte) ≠ 0x01#8 := by decide

/-- The framer's laws, the empty payload and one byte. -/
theorem witness_FramerLaws :
    Startable State.reset ∧ validTag 0x52755374#32 = true
      ∧ ([] : List Byte).length < 2 ^ 32 ∧ ([0x54#8] : List Byte).length < 2 ^ 32 := by decide

theorem witness_ChunkModeComputesChunkParse : Startable (inMode .done) := by decide

/-- What the two cases of a parse look like: `F_IEND`, and no bytes. -/
theorem witness_ChunkModeComputesChunkParse_cases :
    parseChunk (frame 0x49454E44#32 []) = .ok (iend, []) ∧ parseChunk [] = .error .unexpectedEof := by decide +kernel

theorem witness_StreamModeComputesContainerFraming :
    Startable (inError .badSignature) ∧ (frameStream signature).failure = none
      ∧ (frameStream (signature ++ [0#8])).failure = some (.trailingBytes, 8) := by decide

theorem witness_FrameRoundTrip :
    Startable State.reset ∧ validTag 0x72755374#32 = true ∧ ([] : List Byte).length < 2 ^ 32 := by decide

theorem witness_StreamOfFramesRoundTrip :
    Startable State.reset
      ∧ ∀ f ∈ [((0x52755374#32 : Word), ([0x54#8] : List Byte)), (0x49454E44#32, [])],
          validTag f.1 = true ∧ f.2.length < 2 ^ 32 := by decide

theorem witness_ChangedPayloadByteIsDetected :
    Startable State.reset ∧ validTag 0x52755374#32 = true ∧ (([] : List Byte) ++ 0x54#8 :: []).length < 2 ^ 32
      ∧ (0x54#8 : Byte) ≠ 0x55#8 := by decide

theorem iend_valid : iend.valid := by decide +kernel

theorem witness_HostChunkNewAndSerialize :
    (Startable State.reset ∧ validTag 0x52755374#32 = true ∧ ([0x54#8] : List Byte).length < 2 ^ 32) ∧ iend.valid :=
  ⟨by decide, iend_valid⟩

theorem witness_HostParseChunkIsChunkParse : Startable (inMode .done) := by decide

/-- The signature and `F_IEND` parse to one record. -/
theorem witness_ParsedContainerReproducesTheBuffer :
    Startable State.reset
      ∧ (hostParseContainer (signature ++ frame 0x49454E44#32 []) State.reset).map (·.1) = some (.ok [iend]) := by
  decide +kernel

theorem witness_ContainerRoundTrip : Startable State.reset ∧ ∀ c ∈ [iend, iend], c.valid :=
  ⟨by decide, by simpa using iend_valid⟩

/-- A tag that is absent, and one that is present behind another record. -/
theorem witness_AppendLookupAndRemove :
    let other : Record := ⟨0#32, 0x52755374#32, [], 0xD484093C#32⟩
    (∀ e ∈ [other], tagString e.tag ≠ tagString iend.tag)
      ∧ (∀ e ∈ [other], tagString e.tag ≠ ['I', 'E', 'N', 'D'])
      ∧ [other, iend] = [other] ++ iend :: [] ∧ tagString iend.tag = ['I', 'E', 'N', 'D'] := by decide

/-- Lengths three and five; four letters, and four characters with a digit. -/
theorem witness_FromStringAcceptsFourLetters :
    ['R', 'u', 'S'].length ≠ 4 ∧ ['R', 'u', 'S', 't', 'X'].length ≠ 4
      ∧ (['A', 'Z', 'a', 'z'].all (fun c => (decide (0x41 ≤ c.toNat) && decide (c.toNat ≤ 0x5A))
          || (decide (0x61 ≤ c.toNat) && decide (c.toNat ≤ 0x7A))) = true)
      ∧ (['R', 'u', '5', 't'].all (fun c => (decide (0x41 ≤ c.toNat) && decide (c.toNat ≤ 0x5A))
          || (decide (0x61 ≤ c.toNat) && decide (c.toNat ≤ 0x7A))) = false) := by decide

end Sys2Proof.Tests
end

section
/-! The step, by what the bus delivers next: one rule for an idle bus, one for an event of the platform, one equation per
event. -/

namespace Sys2Proof.Machine

/-! ### What a platform event does -/

@[simp] theorem platformEvent_waitState (s : State) : platformEvent .waitState s = .next s := rfl
@[simp] theorem platformEvent_reset (s : State) : platformEvent .reset s = .next (resetBlock s) := rfl
@[simp] theorem platformEvent_stall (s : State) : platformEvent .stall s = .fault .busStalled := rfl
@[simp] theorem platformEvent_narrowAccess (s : State) : platformEvent .narrowAccess s = .refused .narrowAccess := rfl
@[simp] theorem platformEvent_secondMaster (s : State) : platformEvent .secondMaster s = .refused .secondMaster := rfl
@[simp] theorem platformEvent_disorderedAccess (s : State) :
    platformEvent .disorderedAccess s = .refused .disorderedAccess := rfl

/-! ### The step -/

theorem step_of_bus_nil {s : State} (h : s.bus = []) : step s = .next s := by
  simp [step, h, busIdle]

theorem step_of_bus_platform {s : State} {e : PlatformEvent} {rest : List BusEvent} (h : s.bus = .platform e :: rest) :
    step s = platformEvent e { s with bus := rest } := by
  simp [step, h]

/-- The form of `step_of_bus_platform` for an event put on the bus of a given state. -/
theorem step_with_bus_platform (s : State) (e : PlatformEvent) (rest : List BusEvent) :
    step { s with bus := .platform e :: rest } = platformEvent e { s with bus := rest } :=
  step_of_bus_platform rfl

/-- Settles O38: an idle bus keeps the state, and every platform event is performed in place of a transaction. -/
theorem platformEventsAroundTheBlock : Obligations.PlatformEventsAroundTheBlock := by
  intro s rest
  refine ⟨step_of_bus_nil rfl, ?waitState, ?stall, ?narrowAccess, ?secondMaster, ?disorderedAccess⟩
  case waitState => rw [step_with_bus_platform, platformEvent_waitState]
  case stall => rw [step_with_bus_platform, platformEvent_stall]
  case narrowAccess => rw [step_with_bus_platform, platformEvent_narrowAccess]
  case secondMaster => rw [step_with_bus_platform, platformEvent_secondMaster]
  case disorderedAccess => rw [step_with_bus_platform, platformEvent_disorderedAccess]

end Sys2Proof.Machine
end

section
/-! The deframer's byte by phase, and what END can do: one equation per phase, one inversion of each END action. -/

namespace Sys2Proof.Machine

/-! ### A byte in each phase (44_deframer.md R203) -/

section
variable {s : State} (b : Byte)

theorem deframePush_none (hp : s.phase = .none) : deframePush b s = { s with pos := s.pos + 1#32 } := by
  simp [deframePush, hp]

theorem deframePush_sig (hp : s.phase = .sig) : deframePush b s = sigPush b { s with pos := s.pos + 1#32 } := by
  simp [deframePush, hp]

theorem deframePush_bound (hp : s.phase = .bound) :
    deframePush b s = lenPush b (chunkBegin s.pos { s with pos := s.pos + 1#32 }) := by simp [deframePush, hp]

theorem deframePush_len (hp : s.phase = .len) : deframePush b s = lenPush b { s with pos := s.pos + 1#32 } := by
  simp [deframePush, hp]

theorem deframePush_tag (hp : s.phase = .tag) : deframePush b s = tagPush b { s with pos := s.pos + 1#32 } := by
  simp [deframePush, hp]

theorem deframePush_data (hp : s.phase = .data) : deframePush b s = dataPush b { s with pos := s.pos + 1#32 } := by
  simp [deframePush, hp]

theorem deframePush_crc (hp : s.phase = .crc) : deframePush b s = checksumPush b { s with pos := s.pos + 1#32 } := by
  simp [deframePush, hp]

end

/-! ### END -/

/-- StreamEnd succeeds at BOUND and raises an error in every other phase but NONE, which no run reaches (R231). -/
theorem streamEnd_cases (s : State) :
    (s.phase = .none ∧ streamEnd s = s)
      ∨ (s.phase = .bound ∧ streamEnd s = { s with mode := .done })
      ∨ (s.phase ≠ .bound ∧ ∃ k, blockRaises k = true ∧ streamEnd s = fail k s) := by
  unfold streamEnd
  cases s.phase with
  | none => exact .inl ⟨rfl, rfl⟩
  | bound => exact .inr (.inl ⟨rfl, rfl⟩)
  | sig | len | tag | data | crc => exact .inr (.inr ⟨nofun, _, rfl, rfl⟩)

/-- END of a running function changes MODE and ERR and nothing else (R114). -/
theorem endInput_running {s : State} (h : startable s.mode = false) :
    ∃ m e, endInput s = { s with mode := m, err := e } := by
  cases hm : s.mode with
  | idle | done | error => simp [hm, startable] at h
  | crc => exact ⟨.done, s.err, by simp [endInput, hm, crcEnd]⟩
  | frame => exact ⟨.done, s.err, by simp [endInput, hm, frameEnd]⟩
  | chunk => exact ⟨.error, some .unexpectedEof, by simp [endInput, hm, chunkEnd, fail]⟩
  | stream =>
    rw [show endInput s = streamEnd s by simp [endInput, hm]]
    rcases streamEnd_cases s with ⟨-, e⟩ | ⟨-, e⟩ | ⟨-, k, -, e⟩
    · exact ⟨s.mode, s.err, e⟩
    · exact ⟨.done, s.err, e⟩
    · exact ⟨.error, some k, e⟩

theorem endInput_startable {s : State} (h : startable s.mode = true) : endInput s = setIgn s := by
  unfold endInput
  split <;> simp_all [startable]

end Sys2Proof.Machine
end

section
/-! What a transaction can do: one inversion of `exec` over all instructions, and one of `step` over what the bus delivers.
An invariant of the block is then one case per kind of effect, not one per instruction. -/

namespace Sys2Proof

/-- The bytes a data input pushes, in order; none for any other transaction (R117, R118). -/
def Instr.inputBytes : Instr → Option (List Byte)
  | .wrDin8 b _ => some [b]
  | .wrDin32 a b c d => some [a, b, c, d]
  | _ => none

theorem Instr.eq_of_inputBytes {i : Instr} {bs : List Byte} (h : i.inputBytes = some bs) :
    (∃ b g, i = .wrDin8 b g) ∨ ∃ a b c d, i = .wrDin32 a b c d := by
  cases i with
  | wrDin8 b g => exact .inl ⟨b, g, rfl⟩
  | wrDin32 a b c d => exact .inr ⟨a, b, c, d, rfl⟩
  | _ => cases h

end Sys2Proof

namespace Sys2Proof.Machine

/-- What a transaction does to the state, with the guard under which it does it (40_control.md R100, R101). -/
inductive Transacts : Instr → State → State → Prop
  | ignored {i : Instr} {s : State} (refused : accepted s.mode i = false) : Transacts i s (setIgn s)
  | read {i : Instr} {s : State} (v : Word) (isRead : Txn.w (encode i) = 0#1) :
      Transacts i s { s with rdata := s.rdata ++ [v] }
  | nop {g : BitVec 28} {s : State} : Transacts (.cmdNop g) s s
  | clrIgn {g : BitVec 28} {s : State} : Transacts (.cmdClrIgn g) s { s with ign := false }
  | abort {g : BitVec 28} {s : State} : Transacts (.cmdAbort g) s (abort s)
  | crcStart {g : BitVec 28} {s : State} (guard : startable s.mode = true) : Transacts (.cmdCrcStart g) s (crcStart s)
  | frameStart {g : BitVec 28} {s : State} (guard : startable s.mode = true) :
      Transacts (.cmdFrameStart g) s (frameStart s)
  | chunkStart {g : BitVec 28} {s : State} (guard : startable s.mode = true) :
      Transacts (.cmdChunkStart g) s (chunkStart s)
  | streamStart {g : BitVec 28} {s : State} (guard : startable s.mode = true) :
      Transacts (.cmdStreamStart g) s (streamStart s)
  | endInput {g : BitVec 28} {s : State} (guard : startable s.mode = false) : Transacts (.cmdEnd g) s (endInput s)
  | crcState {v : Word} {s : State} (guard : hostWritable s.mode = true) :
      Transacts (.wrCrcState v) s { s with crcState := v }
  | tag {v : Word} {s : State} (guard : hostWritable s.mode = true) :
      Transacts (.wrTag v) s { s with tag := v, hdrv := false }
  | tagchk {v : Word} {s : State} : Transacts (.wrTagchk v) s { s with tagchk := v }
  | input {i : Instr} {s : State} {bs : List Byte} (bytes : i.inputBytes = some bs) (guard : startable s.mode = false) :
      Transacts i s (pushAll bs s)

/-- A command or a write with a guard has its effect where the guard holds and is ignored elsewhere. -/
theorem Transacts.of_guard {i : Instr} {s t : State} {guard : Bool} {x : State} (ht : t = if guard then x else setIgn s)
    (effect : guard = true → Transacts i s x) (refused : guard = false → accepted s.mode i = false) :
    Transacts i s t := by
  subst ht
  cases guard with
  | true => exact effect rfl
  | false => exact .ignored (refused rfl)

/-- A transaction that needs a running function has its effect in one and is ignored outside (R111, R114). -/
theorem Transacts.of_running {i : Instr} {s t : State} (idle : startable s.mode = true → t = setIgn s)
    (effect : startable s.mode = false → Transacts i s t) (refused : accepted s.mode i = !startable s.mode) :
    Transacts i s t := by
  cases h : startable s.mode with
  | true => rw [idle h]; exact .ignored (by rw [refused, h]; rfl)
  | false => exact effect h

/-- Everything a transaction can do (R100). -/
theorem exec_transacts {i : Instr} {s t : State} (h : exec i s = .next t) : Transacts i s t := by
  cases i
  case rdId | rdVersion | rdCtrl | rdStatus | rdCrcState | rdCrcValue | rdDin8 | rdDin32 | rdTag | rdLen | rdRxcrc | rdRem
    | rdPos | rdChunks | rdCstart | rdTagchk | rdTagres | rdMisalignedOdd | rdMisalignedEven | rdReserved =>
    cases h; exact .read _ (Txn.w_word ..)
  case wrId | wrVersion | wrStatus | wrCrcValue | wrLen | wrRxcrc | wrRem | wrPos | wrChunks | wrCstart | wrTagres
    | cmdReserved | wrMisalignedOdd | wrMisalignedEven | wrReserved => cases h; exact .ignored rfl
  case cmdNop => cases h; exact .nop
  case cmdClrIgn => cases h; exact .clrIgn
  case cmdAbort => cases h; exact .abort
  case wrTagchk => cases h; exact .tagchk
  case cmdCrcStart => cases h; exact .of_guard rfl .crcStart id
  case cmdFrameStart => cases h; exact .of_guard rfl .frameStart id
  case cmdChunkStart => cases h; exact .of_guard rfl .chunkStart id
  case cmdStreamStart => cases h; exact .of_guard rfl .streamStart id
  case wrCrcState => cases h; exact .of_guard rfl .crcState id
  case wrTag => cases h; exact .of_guard rfl .tag id
  case cmdEnd => cases h; exact .of_running endInput_startable .endInput rfl
  case wrDin8 b _ => cases h; exact .of_running (pushAll_startable [b]) (.input (bs := [b]) rfl) rfl
  case wrDin32 a b c d => cases h; exact .of_running (pushAll_startable [a, b, c, d]) (.input (bs := [a, b, c, d]) rfl) rfl

theorem step_of_bus_transaction {s : State} {x : Txn} {rest : List BusEvent} (h : s.bus = .transaction x :: rest) :
    step s = exec (decode x) { s with bus := rest } := by
  simp [step, h]

theorem platformEvent_next {e : PlatformEvent} {s t : State} (h : platformEvent e s = .next t) :
    (e = .waitState ∧ t = s) ∨ (e = .reset ∧ t = resetBlock s) := by
  cases e <;> cases h
  · exact .inl ⟨rfl, rfl⟩
  · exact .inr ⟨rfl, rfl⟩

/-- Everything a step that answers a next state can do: nothing, a reset, or a transaction; the last two and a wait state
take their event off the bus. -/
theorem step_cases {s t : State} (h : step s = .next t) :
    (s.bus = [] ∧ t = s)
      ∨ (∃ rest, s.bus = .platform .waitState :: rest ∧ t = { s with bus := rest })
      ∨ (∃ rest, s.bus = .platform .reset :: rest ∧ t = resetBlock { s with bus := rest })
      ∨ (∃ x rest, s.bus = .transaction x :: rest ∧ Transacts (decode x) { s with bus := rest } t) := by
  cases hb : s.bus with
  | nil =>
    rw [step_of_bus_nil hb] at h
    cases h
    exact .inl ⟨rfl, rfl⟩
  | cons e rest =>
    cases e with
    | transaction x =>
      rw [step_of_bus_transaction hb] at h
      exact .inr (.inr (.inr ⟨x, rest, rfl, exec_transacts h⟩))
    | platform e =>
      rw [step_of_bus_platform hb] at h
      rcases platformEvent_next h with ⟨rfl, rfl⟩ | ⟨rfl, rfl⟩
      · exact .inr (.inl ⟨rest, rfl, rfl⟩)
      · exact .inr (.inr (.inl ⟨rest, rfl, rfl⟩))

end Sys2Proof.Machine
end

section
/-! The invariants of R47 (StatusInv) at reset, and through every operation of the block. -/

namespace Sys2Proof.Machine

/-! ### StatusInv, by whether the block is in ERROR -/

theorem statusInv_of_not_error {s : State} (hm : s.mode ≠ .error) (legal : statusLegal s.mode s.phase s.fcnt = true)
    (err : s.err = none) (data : s.phase = .data → 1#32 ≤ s.rem ∧ s.rem ≤ s.len)
    (hdrv : s.hdrv = true → validTag s.tag = true ∧ (s.phase = .data ∨ s.phase = .crc ∨ s.phase = .bound)) :
    StatusInv s :=
  ⟨legal, by simp [err, hm], by simp [err], data, hdrv⟩

theorem statusInv_of_error {s : State} {k : ErrKind} (hm : s.mode = .error)
    (legal : statusLegal .error s.phase s.fcnt = true) (err : s.err = some k) (hk : blockRaises k = true)
    (data : s.phase = .data → 1#32 ≤ s.rem ∧ s.rem ≤ s.len)
    (hdrv : s.hdrv = true → validTag s.tag = true ∧ (s.phase = .data ∨ s.phase = .crc ∨ s.phase = .bound)) :
    StatusInv s :=
  ⟨hm ▸ legal, by simp [err, hm], by simp [err, hk], data, hdrv⟩

theorem StatusInv.err_eq_none {s : State} (h : StatusInv s) (hm : s.mode ≠ .error) : s.err = none := by
  obtain ⟨-, errIff, -⟩ := h
  simpa [hm] using errIff

/-- HDRV waits for the complete header (R215; 70_reset_and_hazards.md R339). -/
theorem StatusInv.hdrv_ne_true {s : State} (h : StatusInv s) (hp : s.phase = .sig ∨ s.phase = .len ∨ s.phase = .tag) :
    s.hdrv ≠ true := by
  obtain ⟨-, -, -, -, hdrv⟩ := h
  intro hh
  have := (hdrv hh).2
  rcases hp with hp | hp | hp <;> simp [hp] at this

/-- What StatusInv says where there is no deframer at work: PHASE, FCNT and HDRV are as at reset. -/
theorem statusInv_of_phase_none {s : State} (hm : s.mode = .idle ∨ s.mode = .crc ∨ s.mode = .frame)
    (hp : s.phase = .none) (hf : s.fcnt = 0#3) (he : s.err = none) (hh : s.hdrv = false) : StatusInv s := by
  refine statusInv_of_not_error ?_ ?_ he (by simp [hp]) (by simp [hh])
  · rcases hm with h | h | h <;> simp [h]
  · rcases hm with h | h | h <;> simp [h, hp, hf, statusLegal]

/-- An error keeps the invariants where ERROR may stand with the phase and the count of the moment (R305). -/
theorem statusInv_fail {k : ErrKind} {s : State} (hk : blockRaises k = true)
    (legal : statusLegal .error s.phase s.fcnt = true) (h : StatusInv s) : StatusInv (fail k s) := by
  obtain ⟨-, -, -, data, hdrv⟩ := h
  exact statusInv_of_error rfl legal rfl hk data hdrv

/-! ### The table of R47 -/

theorem statusLegal_field {m : Mode} {p : Phase} (f : BitVec 3) (hm : m = .chunk ∨ m = .stream ∨ m = .error)
    (hp : p = .len ∨ p = .tag ∨ p = .crc) : statusLegal m p f = decide (f < 4#3) := by
  rcases hm with rfl | rfl | rfl <;> rcases hp with rfl | rfl | rfl <;> rfl

theorem statusLegal_data {m : Mode} (f : BitVec 3) (hm : m = .chunk ∨ m = .stream ∨ m = .error) :
    statusLegal m .data f = decide (f = 0#3) := by
  rcases hm with rfl | rfl | rfl <;> rfl

/-- An error may be raised in every phase of a deframing function but BOUND (R230, R231). -/
theorem statusLegal_error_of_deframing {m : Mode} {p : Phase} {f : BitVec 3} (hm : m = .chunk ∨ m = .stream)
    (hp : p ≠ .bound) (h : statusLegal m p f = true) : statusLegal .error p f = true := by
  rcases hm with rfl | rfl <;> cases p <;> simp_all [statusLegal]

/-- The SIG phase, and BOUND before the end, are those of STREAM mode (R211, R212). -/
theorem stream_of_statusLegal {m : Mode} {p : Phase} {f : BitVec 3} (hm : m = .chunk ∨ m = .stream)
    (hp : p = .sig ∨ p = .bound) (h : statusLegal m p f = true) : m = .stream := by
  rcases hm with rfl | rfl
  · rcases hp with rfl | rfl <;> cases h
  · rfl

theorem phase_none_of_statusLegal {m : Mode} {p : Phase} {f : BitVec 3} (hm : m = .crc ∨ m = .frame)
    (h : statusLegal m p f = true) : p = .none ∧ f = 0#3 := by
  rcases hm with rfl | rfl <;> cases p <;> simp_all [statusLegal]

/-- A field with a byte still to come counts on in its phase. -/
theorem statusLegal_field_next {m : Mode} {p : Phase} {f : BitVec 3} (hm : m = .chunk ∨ m = .stream)
    (hp : p = .len ∨ p = .tag ∨ p = .crc) (hf : f < 3#3) : statusLegal m p (f + 1#3) = true := by
  rw [statusLegal_field _ (hm.imp_right .inl) hp]
  exact decide_eq_true (by bv_omega)

/-! ### A byte -/

theorem not_error_of_deframing {m : Mode} (hm : m = .chunk ∨ m = .stream) : m ≠ .error := by
  rcases hm with rfl | rfl <;> nofun

theorem chunkBegin_statusInv {s : State} (off : Word) (hm : s.mode = .stream) (h : StatusInv s) :
    StatusInv (chunkBegin off s) := by
  have hne : s.mode ≠ .error := by simp [hm]
  refine statusInv_of_not_error hne ?_ (h.err_eq_none hne) nofun nofun
  simp [hm, statusLegal]

theorem sigPush_statusInv {s : State} (b : Byte) (hm : s.mode = .stream) (hp : s.phase = .sig) (h : StatusInv s) :
    StatusInv (sigPush b s) := by
  have hne : s.mode ≠ .error := by simp [hm]
  have err := h.err_eq_none hne
  have noHeader := h.hdrv_ne_true (.inl hp)
  rw [sigPush_eq]
  split
  · refine statusInv_of_not_error hne ?_ err (by simp [hp]) (absurd · noHeader)
    simp [hm, hp, statusLegal]
  split
  · refine statusInv_of_not_error hne ?_ err nofun (absurd · noHeader)
    simp [hm, statusLegal]
  · refine statusInv_of_error rfl ?_ rfl rfl (by simp [hp]) (absurd · noHeader)
    simp [hp, statusLegal]

theorem lenPush_statusInv {s : State} (b : Byte) (hm : s.mode = .chunk ∨ s.mode = .stream) (hp : s.phase = .len)
    (h : StatusInv s) : StatusInv (lenPush b s) := by
  have hne := not_error_of_deframing hm
  have err := h.err_eq_none hne
  have noHeader := h.hdrv_ne_true (.inr (.inl hp))
  rw [lenPush_eq]
  split
  · refine statusInv_of_not_error hne ?_ err (by simp [hp]) (absurd · noHeader)
    exact statusLegal_field_next hm (.inl hp) ‹_›
  · refine statusInv_of_not_error hne ?_ err nofun (absurd · noHeader)
    exact statusLegal_field 0#3 (hm.imp_right .inl) (.inr (.inl rfl))

/-- The fourth tag byte sets HDRV with a valid tag only, and enters DATA with REM = LEN only where LEN is not 0 (R215,
R217). -/
theorem tagPush_statusInv {s : State} (b : Byte) (hm : s.mode = .chunk ∨ s.mode = .stream) (hp : s.phase = .tag)
    (h : StatusInv s) : StatusInv (tagPush b s) := by
  have hne := not_error_of_deframing hm
  have err := h.err_eq_none hne
  have noHeader := h.hdrv_ne_true (.inr (.inr hp))
  rw [tagPush_eq]
  split
  · refine statusInv_of_not_error hne ?_ err (by simp [hp]) (absurd · noHeader)
    exact statusLegal_field_next hm (.inr (.inl hp)) ‹_›
  split
  · rename_i valid
    by_cases hl : s.len = 0#32
    · simp only [hl, if_true]
      refine statusInv_of_not_error hne ?_ err nofun fun _ => ⟨valid, .inr (.inl rfl)⟩
      exact statusLegal_field 0#3 (hm.imp_right .inl) (.inr (.inr rfl))
    · simp only [hl, if_false]
      refine statusInv_of_not_error hne ?_ err (fun _ => ⟨?_, BitVec.le_refl _⟩) fun _ => ⟨valid, .inl rfl⟩
      · exact statusLegal_data 0#3 (hm.imp_right .inl)
      · show 1#32 ≤ s.len
        bv_omega
  · refine statusInv_of_error rfl ?_ rfl rfl (by simp [hp]) (absurd · noHeader)
    exact statusLegal_field 0#3 (.inr (.inr rfl)) (.inr (.inl hp))

/-- A payload byte leaves DATA exactly when it was the last one, so REM stays at least 1 in DATA (R216). -/
theorem dataPush_statusInv {s : State} (b : Byte) (hm : s.mode = .chunk ∨ s.mode = .stream) (hp : s.phase = .data)
    (h : StatusInv s) : StatusInv (dataPush b s) := by
  have hne := not_error_of_deframing hm
  have err := h.err_eq_none hne
  obtain ⟨legal, -, -, data, hdrv⟩ := h
  obtain ⟨hlow, hhigh⟩ := data hp
  have hf : s.fcnt = 0#3 := by
    rw [hp, statusLegal_data _ (hm.imp_right .inl)] at legal
    exact of_decide_eq_true legal
  rw [dataPush_eq]
  by_cases last : s.rem - 1#32 = 0#32
  · simp only [last, if_true, hf]
    refine statusInv_of_not_error hne ?_ err nofun fun hh => ⟨(hdrv hh).1, .inr (.inl rfl)⟩
    exact statusLegal_field 0#3 (hm.imp_right .inl) (.inr (.inr rfl))
  · simp only [last, if_false, hp, hf]
    refine statusInv_of_not_error hne ?_ err (fun _ => ?_) fun hh => ⟨(hdrv hh).1, .inl rfl⟩
    · exact statusLegal_data 0#3 (hm.imp_right .inl)
    · show 1#32 ≤ s.rem - 1#32 ∧ s.rem - 1#32 ≤ s.len
      constructor <;> bv_omega

/-- The fourth checksum byte ends at BOUND, in DONE or STREAM, or raises the error in the CRC phase (R218 to R222). -/
theorem checksumPush_statusInv {s : State} (b : Byte) (hm : s.mode = .chunk ∨ s.mode = .stream) (hp : s.phase = .crc)
    (h : StatusInv s) : StatusInv (checksumPush b s) := by
  have hne := not_error_of_deframing hm
  have err := h.err_eq_none hne
  obtain ⟨-, -, -, -, hdrv⟩ := h
  rw [checksumPush_eq]
  split
  · refine statusInv_of_not_error hne ?_ err (by simp [hp]) hdrv
    exact statusLegal_field_next hm (.inr (.inr hp)) ‹_›
  split
  · rcases hm with hm | hm <;> simp only [hm, if_true, reduceCtorEq, if_false]
    · exact statusInv_of_not_error nofun rfl err nofun fun hh => ⟨(hdrv hh).1, .inr (.inr rfl)⟩
    · exact statusInv_of_not_error nofun rfl err nofun fun hh => ⟨(hdrv hh).1, .inr (.inr rfl)⟩
  · refine statusInv_of_error rfl ?_ rfl rfl (by simp [hp]) hdrv
    exact statusLegal_field 0#3 (.inr (.inr rfl)) (.inr (.inr hp))

theorem deframePush_statusInv {s : State} (b : Byte) (hm : s.mode = .chunk ∨ s.mode = .stream) (h : StatusInv s) :
    StatusInv (deframePush b s) := by
  have counted : StatusInv { s with pos := s.pos + 1#32 } := h
  have ⟨legal, _⟩ := h
  have stream : s.phase = .sig ∨ s.phase = .bound → s.mode = .stream := fun hp => stream_of_statusLegal hm hp legal
  cases hp : s.phase with
  | none => rw [deframePush_none b hp]; exact counted
  | sig => rw [deframePush_sig b hp]; exact sigPush_statusInv b (stream (.inl hp)) hp counted
  | len => rw [deframePush_len b hp]; exact lenPush_statusInv b hm hp counted
  | tag => rw [deframePush_tag b hp]; exact tagPush_statusInv b hm hp counted
  | data => rw [deframePush_data b hp]; exact dataPush_statusInv b hm hp counted
  | crc => rw [deframePush_crc b hp]; exact checksumPush_statusInv b hm hp counted
  | bound =>
    rw [deframePush_bound b hp]
    exact lenPush_statusInv b hm rfl (chunkBegin_statusInv s.pos (stream (.inr hp)) counted)

theorem framePush_statusInv {s : State} (b : Byte) (hm : s.mode = .frame) (h : StatusInv s) :
    StatusInv (framePush b s) := by
  obtain ⟨hp, hf⟩ := phase_none_of_statusLegal (.inr hm) h.1
  unfold framePush
  split
  · exact statusInv_fail rfl (by rw [hp, hf]; rfl) h
  · obtain ⟨legal, err, kind, -, hdrv⟩ := h
    exact ⟨legal, err, kind, by simp [hp], hdrv⟩

theorem push_statusInv {s : State} (b : Byte) (h : StatusInv s) : StatusInv (push b s) := by
  cases hm : s.mode with
  | idle | done | error =>
    rw [push_startable b (by rw [hm]; rfl)]
    exact h
  | crc =>
    rw [push_crc b hm]
    exact h
  | frame =>
    rw [push_frame b hm]
    exact framePush_statusInv b hm h
  | chunk =>
    rw [push_deframe b (.inl hm)]
    exact deframePush_statusInv b (.inl hm) h
  | stream =>
    rw [push_deframe b (.inr hm)]
    exact deframePush_statusInv b (.inr hm) h

theorem pushAll_statusInv (bs : List Byte) : ∀ {s : State}, StatusInv s → StatusInv (pushAll bs s) := by
  induction bs with
  | nil => exact id
  | cons b bs ih => exact fun h => ih (push_statusInv b h)

/-! ### The commands and writes -/

theorem frameStart_statusInv (s : State) : StatusInv (frameStart s) := by
  unfold frameStart
  split
  · exact statusInv_of_phase_none (.inr (.inr rfl)) rfl rfl rfl rfl
  · exact statusInv_of_error rfl rfl rfl rfl nofun nofun

theorem chunkStart_statusInv (s : State) : StatusInv (chunkStart s) :=
  statusInv_of_not_error nofun rfl rfl nofun nofun

theorem streamStart_statusInv (s : State) : StatusInv (streamStart s) :=
  statusInv_of_not_error nofun rfl rfl nofun nofun

/-- Ending with success is legal where no chunk is open: PHASE is NONE or BOUND. -/
theorem done_statusInv {s : State} (hm : s.mode ≠ .error) (legal : statusLegal .done s.phase s.fcnt = true)
    (h : StatusInv s) : StatusInv { s with mode := .done } := by
  have err := h.err_eq_none hm
  obtain ⟨-, -, -, data, hdrv⟩ := h
  exact statusInv_of_not_error nofun legal err data hdrv

theorem streamEnd_statusInv {s : State} (hm : s.mode = .stream) (h : StatusInv s) : StatusInv (streamEnd s) := by
  have ⟨legal, _⟩ := h
  rcases streamEnd_cases s with ⟨-, e⟩ | ⟨hp, e⟩ | ⟨hp, k, hk, e⟩ <;> rw [e]
  · exact h
  · exact done_statusInv (by simp [hm]) (by simpa [hm, hp, statusLegal] using legal) h
  · exact statusInv_fail hk (statusLegal_error_of_deframing (.inr hm) hp legal) h

theorem chunkEnd_statusInv {s : State} (hm : s.mode = .chunk) (h : StatusInv s) : StatusInv (chunkEnd s) := by
  have ⟨legal, _⟩ := h
  have inside : s.phase ≠ .bound := fun hp => by simp [hm, hp, statusLegal] at legal
  exact statusInv_fail rfl (statusLegal_error_of_deframing (.inl hm) inside legal) h

theorem endInput_statusInv {s : State} (h : StatusInv s) : StatusInv (endInput s) := by
  have done : s.mode = .crc ∨ s.mode = .frame → StatusInv { s with mode := .done } := by
    intro hm
    obtain ⟨hp, hf⟩ := phase_none_of_statusLegal hm h.1
    exact done_statusInv (by rcases hm with hm | hm <;> simp [hm]) (by rw [hp, hf]; rfl) h
  unfold endInput
  cases hm : s.mode with
  | idle | done | error => exact h
  | crc => exact done (.inl hm)
  | frame => exact done (.inr hm)
  | chunk => exact chunkEnd_statusInv hm h
  | stream => exact streamEnd_statusInv hm h

/-! ### Every transaction, every step -/

theorem Transacts.statusInv {i : Instr} {s t : State} (ht : Transacts i s t) (h : StatusInv s) : StatusInv t := by
  cases ht with
  | ignored | read | nop | clrIgn | tagchk | crcState => exact h
  | abort => exact statusInv_of_phase_none (.inl rfl) rfl rfl rfl rfl
  | crcStart => exact statusInv_of_phase_none (.inr (.inl rfl)) rfl rfl rfl rfl
  | frameStart => exact frameStart_statusInv s
  | chunkStart => exact chunkStart_statusInv s
  | streamStart => exact streamStart_statusInv s
  | endInput => exact endInput_statusInv h
  | tag =>
    obtain ⟨legal, err, kind, data, -⟩ := h
    exact ⟨legal, err, kind, data, nofun⟩
  | input => exact pushAll_statusInv _ h

theorem resetBlock_statusInv (s : State) : StatusInv (resetBlock s) :=
  statusInv_of_phase_none (.inl rfl) rfl rfl rfl rfl

/-- Settles O43: an idle bus and a wait state change no field StatusInv speaks of, a reset gives a legal state, and every
transaction keeps the invariants (`Transacts.statusInv`). -/
theorem stepKeepsStatusInv : Obligations.StepKeepsStatusInv := by
  intro s t h hstep
  rcases step_cases hstep with ⟨-, rfl⟩ | ⟨rest, -, rfl⟩ | ⟨rest, -, rfl⟩ | ⟨x, rest, -, ht⟩
  · exact h
  · exact h
  · exact resetBlock_statusInv _
  · exact ht.statusInv h

theorem reset_statusInv : StatusInv State.reset := statusInv_of_phase_none (.inl rfl) rfl rfl rfl rfl

/-- Settles O42: no function is active after reset, and no error is recorded. -/
theorem resetMeetsTheInvariants : Obligations.ResetMeetsTheInvariants := by
  have deframer : ¬(State.reset.mode = .chunk ∨ State.reset.mode = .stream) := by decide
  exact ⟨reset_statusInv, fun hm => absurd hm deframer, nofun, nofun⟩

end Sys2Proof.Machine
end

section
/-! Which registers a byte may change in which mode, for one byte and for a sequence; with `exec_transacts` this says which
transaction may change which register (10_state.md R20, R30 to R41). -/

namespace Sys2Proof.Machine

/-- What a byte does, by mode (R111). -/
theorem push_cases (b : Byte) (s : State) :
    (startable s.mode = true ∧ push b s = setIgn s)
      ∨ (s.mode = .crc ∧ push b s = crcPush b s)
      ∨ (s.mode = .frame ∧ push b s = framePush b s)
      ∨ ((s.mode = .chunk ∨ s.mode = .stream) ∧ push b s = deframePush b s) := by
  cases hm : s.mode with
  | idle | done | error => exact .inl ⟨rfl, push_startable b (by rw [hm]; rfl)⟩
  | crc => exact .inr (.inl ⟨rfl, push_crc b hm⟩)
  | frame => exact .inr (.inr (.inl ⟨rfl, push_frame b hm⟩))
  | chunk => exact .inr (.inr (.inr ⟨.inl rfl, push_deframe b (.inl hm)⟩))
  | stream => exact .inr (.inr (.inr ⟨.inr rfl, push_deframe b (.inr hm)⟩))

/-! ### The mode after a byte -/

theorem framePush_mode (b : Byte) (s : State) : (framePush b s).mode = s.mode ∨ (framePush b s).mode = .error := by
  unfold framePush
  split
  · exact .inr rfl
  · exact .inl rfl

theorem deframePush_mode (b : Byte) (s : State) :
    (deframePush b s).mode = s.mode ∨ startable (deframePush b s).mode = true := by
  cases hp : s.phase with
  | none => rw [deframePush_none b hp]; exact .inl rfl
  | sig =>
    rw [deframePush_sig b hp, sigPush_eq]
    split
    · exact .inl rfl
    split
    · exact .inl rfl
    · exact .inr rfl
  | bound => rw [deframePush_bound b hp, lenPush_eq]; split <;> exact .inl rfl
  | len => rw [deframePush_len b hp, lenPush_eq]; split <;> exact .inl rfl
  | tag =>
    rw [deframePush_tag b hp, tagPush_eq]
    split
    · exact .inl rfl
    split
    · exact .inl rfl
    · exact .inr rfl
  | data => rw [deframePush_data b hp, dataPush_eq]; exact .inl rfl
  | crc =>
    rw [deframePush_crc b hp, checksumPush_eq]
    split
    · exact .inl rfl
    split
    · by_cases hm : s.mode = .chunk
      · exact .inr (by simp [hm, startable])
      · exact .inl (by simp [hm])
    · exact .inr rfl

/-- A byte keeps the mode or ends the function: it starts none. -/
theorem push_mode (b : Byte) (s : State) : (push b s).mode = s.mode ∨ startable (push b s).mode = true := by
  rcases push_cases b s with ⟨-, e⟩ | ⟨-, e⟩ | ⟨-, e⟩ | ⟨-, e⟩ <;> rw [e]
  · exact .inl rfl
  · exact .inl rfl
  · exact (framePush_mode b s).imp_right fun h => by rw [h]; rfl
  · exact deframePush_mode b s

/-! ### The registers a byte may change -/

theorem deframePush_tagchk (b : Byte) (s : State) : (deframePush b s).tagchk = s.tagchk := by
  cases hp : s.phase with
  | none => rw [deframePush_none b hp]
  | sig => rw [deframePush_sig b hp, sigPush_eq]; split <;> [skip; split] <;> rfl
  | bound => rw [deframePush_bound b hp, lenPush_eq]; split <;> rfl
  | len => rw [deframePush_len b hp, lenPush_eq]; split <;> rfl
  | tag => rw [deframePush_tag b hp, tagPush_eq]; split <;> [skip; split] <;> rfl
  | data => rw [deframePush_data b hp, dataPush_eq]
  | crc => rw [deframePush_crc b hp, checksumPush_eq]; split <;> [skip; split] <;> rfl

/-- The registers of which only the deframer makes something with a byte (R34, R36, R37, R39, R40). -/
def State.deframerRegs (s : State) : Word × Word × Word × Word × Word := (s.rxcrc, s.rem, s.chunks, s.cstart, s.tag)

/-- The registers that every running function moves on with a byte (R30, R38). -/
def State.runningRegs (s : State) : Word × Word := (s.pos, s.crcState)

theorem push_tagchk (b : Byte) (s : State) : (push b s).tagchk = s.tagchk := by
  rcases push_cases b s with ⟨-, e⟩ | ⟨-, e⟩ | ⟨-, e⟩ | ⟨-, e⟩ <;> rw [e]
  · rfl
  · rfl
  · unfold framePush
    split <;> rfl
  · exact deframePush_tagchk b s

theorem push_deframerRegs {b : Byte} {s : State} (h : (push b s).deframerRegs ≠ s.deframerRegs) :
    s.mode = .chunk ∨ s.mode = .stream := by
  rcases push_cases b s with ⟨-, e⟩ | ⟨-, e⟩ | ⟨-, e⟩ | ⟨hm, -⟩
  · exact absurd (by rw [e]; rfl) h
  · exact absurd (by rw [e]; rfl) h
  · exact absurd (by rw [e, framePush]; split <;> rfl) h
  · exact hm

theorem push_len {b : Byte} {s : State} (h : (push b s).len ≠ s.len) :
    (s.mode = .chunk ∨ s.mode = .stream) ∨ s.mode = .frame := by
  rcases push_cases b s with ⟨-, e⟩ | ⟨-, e⟩ | ⟨hm, -⟩ | ⟨hm, -⟩
  · exact absurd (by rw [e]; rfl) h
  · exact absurd (by rw [e]; rfl) h
  · exact .inr hm
  · exact .inl hm

theorem push_runningRegs {b : Byte} {s : State} (h : (push b s).runningRegs ≠ s.runningRegs) :
    (s.mode = .chunk ∨ s.mode = .stream) ∨ s.mode = .frame ∨ s.mode = .crc := by
  rcases push_cases b s with ⟨-, e⟩ | ⟨hm, -⟩ | ⟨hm, -⟩ | ⟨hm, -⟩
  · exact absurd (by rw [e]; rfl) h
  · exact .inr (.inr hm)
  · exact .inr (.inl hm)
  · exact .inl hm

/-- From one byte to a sequence: if a byte changes a part `f` of the state only in the modes `writes`, all of them of a
running function, then so does a sequence, since a byte that leaves the mode leaves it for one without a function. -/
theorem mode_of_pushAll_ne {α : Type} (f : State → α) (writes : Mode → Prop)
    (running : ∀ m, writes m → startable m = false) (byte : ∀ b s, f (push b s) ≠ f s → writes s.mode) (bs : List Byte) :
    ∀ {s : State}, f (pushAll bs s) ≠ f s → writes s.mode := by
  induction bs with
  | nil => exact fun h => absurd rfl h
  | cons b bs ih =>
    intro s h
    by_cases first : f (push b s) = f s
    · have later : writes (push b s).mode := ih (by rw [first]; exact h)
      rcases push_mode b s with same | ended
      · rwa [same] at later
      · rw [running _ later] at ended
        cases ended
    · exact byte b s first

theorem pushAll_tagchk (bs : List Byte) (s : State) : (pushAll bs s).tagchk = s.tagchk :=
  not_not.1 fun h => mode_of_pushAll_ne State.tagchk (fun _ => False) nofun (fun b s h => h (push_tagchk b s)) bs h

theorem pushAll_deframerRegs {bs : List Byte} {s : State} (h : (pushAll bs s).deframerRegs ≠ s.deframerRegs) :
    s.mode = .chunk ∨ s.mode = .stream :=
  mode_of_pushAll_ne State.deframerRegs (fun m => m = .chunk ∨ m = .stream) (by rintro m (rfl | rfl) <;> rfl)
    (fun _ _ => push_deframerRegs) bs h

theorem pushAll_len {bs : List Byte} {s : State} (h : (pushAll bs s).len ≠ s.len) :
    (s.mode = .chunk ∨ s.mode = .stream) ∨ s.mode = .frame :=
  mode_of_pushAll_ne State.len (fun m => (m = .chunk ∨ m = .stream) ∨ m = .frame)
    (by rintro m ((rfl | rfl) | rfl) <;> rfl) (fun _ _ => push_len) bs h

theorem pushAll_runningRegs {bs : List Byte} {s : State} (h : (pushAll bs s).runningRegs ≠ s.runningRegs) :
    (s.mode = .chunk ∨ s.mode = .stream) ∨ s.mode = .frame ∨ s.mode = .crc :=
  mode_of_pushAll_ne State.runningRegs (fun m => (m = .chunk ∨ m = .stream) ∨ m = .frame ∨ m = .crc)
    (by rintro m ((rfl | rfl) | rfl | rfl) <;> rfl) (fun _ _ => push_runningRegs) bs h

/-- What a byte sequence may change, register by register, by the mode it finds (R30 to R41). -/
theorem pushAll_writes (bs : List Byte) (s : State) :
    (pushAll bs s).tagchk = s.tagchk
      ∧ ((pushAll bs s).rxcrc ≠ s.rxcrc ∨ (pushAll bs s).rem ≠ s.rem ∨ (pushAll bs s).chunks ≠ s.chunks
          ∨ (pushAll bs s).cstart ≠ s.cstart → s.mode = .chunk ∨ s.mode = .stream)
      ∧ ((pushAll bs s).tag ≠ s.tag → s.mode = .chunk ∨ s.mode = .stream)
      ∧ ((pushAll bs s).len ≠ s.len → (s.mode = .chunk ∨ s.mode = .stream) ∨ s.mode = .frame)
      ∧ ((pushAll bs s).pos ≠ s.pos → (s.mode = .chunk ∨ s.mode = .stream) ∨ s.mode = .frame ∨ s.mode = .crc)
      ∧ ((pushAll bs s).crcState ≠ s.crcState →
          (s.mode = .chunk ∨ s.mode = .stream) ∨ s.mode = .frame ∨ s.mode = .crc) := by
  have deframer := @pushAll_deframerRegs bs s
  have running := @pushAll_runningRegs bs s
  simp only [State.deframerRegs, State.runningRegs, ne_eq, Prod.mk.injEq] at deframer running
  refine ⟨pushAll_tagchk bs s, ?_, ?_, pushAll_len, ?_, ?_⟩
  · exact fun h => deframer (by tauto)
  · exact fun h => deframer (by tauto)
  · exact fun h => running (by tauto)
  · exact fun h => running (by tauto)

/-! ### The transactions -/

theorem frameStart_keeps (s : State) :
    (frameStart s).tagchk = s.tagchk ∧ (frameStart s).deframerRegs = s.deframerRegs := by
  unfold frameStart
  split <;> exact ⟨rfl, rfl⟩

/-- Settles O34: the transactions but the data inputs have their one effect (`Transacts`), a data input that of its byte
sequence (`pushAll_writes`). -/
theorem registersAreWrittenOnlyBy : Obligations.RegistersAreWrittenOnlyBy := by
  intro i s t h din deframing deframeStart
  cases exec_transacts h with
  | ignored | read | nop | clrIgn | abort => simp
  | tagchk | tag | crcState => simp
  | endInput running =>
    obtain ⟨m, e, he⟩ := endInput_running running
    simp [he]
  | crcStart => simp
  | frameStart =>
    have keeps := frameStart_keeps s
    simp only [State.deframerRegs, Prod.mk.injEq] at keeps
    simp [keeps]
  | chunkStart | streamStart => simp [deframeStart]
  | @input _ _ bs bytes =>
    have isDin : din := i.eq_of_inputBytes bytes
    obtain ⟨tagchk, deframer, tag, len, pos, crcState⟩ := pushAll_writes bs s
    exact ⟨fun h => absurd tagchk h, fun h => .inr ⟨isDin, deframer h⟩, fun h => .inr (.inr ⟨isDin, tag h⟩),
      fun h => .inr (.inr ⟨isDin, len h⟩), fun h => .inr (.inr (.inr ⟨isDin, pos h⟩)),
      fun h => .inr (.inr (.inr (.inr ⟨isDin, crcState h⟩)))⟩

end Sys2Proof.Machine
end

section
/-! STATUS field by field, and the state after reset. -/

namespace Sys2Proof.Machine

theorem decode_read_reg (r : Reg) (x : Word) :
    decode (word 0#1 (regOffset r) x) = decodeRead (.reg r) (regOffset r) x := by
  rw [decode_read, slotOf_regOffset]

theorem decode_rdStatus (x : Word) : decode (word 0#1 0x0C#8 x) = .rdStatus x := decode_read_reg .status x

/-! ### STATUS, field by field (R24, R25) -/

section
variable (s : State)

@[simp] theorem statusWord_mode : (statusWord s).extractLsb' 0 3 = modeCode s.mode := by
  apply BitVec.eq_of_getLsbD_eq
  intro i hi
  interval_cases i <;> simp [statusWord, bitAt]

@[simp] theorem statusWord_err : (statusWord s).extractLsb' 4 4 = errCode s.err := by
  apply BitVec.eq_of_getLsbD_eq
  intro i hi
  interval_cases i <;> simp [statusWord, bitAt]

@[simp] theorem statusWord_phase : (statusWord s).extractLsb' 12 3 = phaseCode s.phase := by
  apply BitVec.eq_of_getLsbD_eq
  intro i hi
  interval_cases i <;> simp [statusWord, bitAt]

@[simp] theorem statusWord_fcnt : (statusWord s).extractLsb' 16 3 = s.fcnt := by
  apply BitVec.eq_of_getLsbD_eq
  intro i hi
  interval_cases i <;> simp [statusWord, bitAt]

@[simp] theorem statusWord_reserved_high : (statusWord s).extractLsb' 19 13 = 0#13 := by
  apply BitVec.eq_of_getLsbD_eq
  intro i hi
  interval_cases i <;> simp [statusWord, bitAt]

theorem statusWord_reserved_3 : (statusWord s).getLsbD 3 = false := by simp [statusWord, bitAt]

theorem statusWord_reserved_15 : (statusWord s).getLsbD 15 = false := by simp [statusWord, bitAt]

theorem statusWord_ign : (statusWord s).getLsbD 8 = s.ign := by simp [statusWord, bitAt]

theorem statusWord_hdrv : (statusWord s).getLsbD 9 = s.hdrv := by simp [statusWord, bitAt]

theorem statusWord_tcrit : (statusWord s).getLsbD 10 = !s.tag.getLsbD 29 := by simp [statusWord, bitAt, critical]

theorem statusWord_sigmatch : (statusWord s).getLsbD 11 = s.sigmatch := by simp [statusWord, bitAt]

end

/-- Settles O8: the value read is the status word, whose fields stand where R25 puts them. -/
theorem statusReadsItsFields : Obligations.StatusReadsItsFields := by
  intro s x
  refine ⟨decode_rdStatus x, statusWord s, rfl, ?mode, statusWord_reserved_3 s, ?err, statusWord_ign s, statusWord_hdrv s,
    statusWord_tcrit s, statusWord_sigmatch s, ?phase, statusWord_reserved_15 s, statusWord_fcnt s,
    statusWord_reserved_high s⟩
  case mode => rw [statusWord_mode]; cases s.mode <;> rfl
  case err => rw [statusWord_err]; rcases s.err with _ | k <;> [rfl; cases k <;> rfl]
  case phase => rw [statusWord_phase]; cases s.phase <;> rfl

/-! ### After reset (R46) -/

theorem statusWord_reset : statusWord State.reset = 0x00000C00#32 := by decide

theorem crcFinish_crcInit : crcFinish crcInit = 0x00000000#32 := by decide

theorem tagresWord_zero : tagresWord 0#32 = 0x00000002#32 := by decide

/-- Settles O35: the fields are those `State.reset` writes out; the three values read are computed from them. -/
theorem resetValues : Obligations.ResetValues := by
  refine ⟨rfl, rfl, rfl, rfl, rfl, rfl, rfl, rfl, rfl, rfl, rfl, rfl, rfl, rfl, rfl, rfl, ?status, ?crcValue, ?tagres⟩
  case status => exact congrArg (respond · State.reset) statusWord_reset
  case crcValue => exact congrArg (respond · State.reset) crcFinish_crcInit
  case tagres => exact congrArg (respond · State.reset) tagresWord_zero

end Sys2Proof.Machine
end

section
/-! A read, by the slot its offset selects: what it answers, and that the answer stands in the block's own state, which a
read leaves alone (20_memory.md R57). -/

namespace Sys2Proof

theorem Txn.w_eq_ofBool (t : Txn) : Txn.w t = BitVec.ofBool (t.getLsbD 40) := by
  apply BitVec.eq_of_getLsbD_eq
  intro i hi
  obtain rfl : i = 0 := by omega
  simp [Txn.w]

theorem decode_of_bit40_false {t : Txn} (h : t.getLsbD 40 = false) :
    decode t = decodeRead (slotOf (Txn.off t)) (Txn.off t) (Txn.wdata t) := by
  have isRead : Txn.w t ≠ 1#1 := by
    rw [Txn.w_eq_ofBool, h]
    decide
  exact if_neg isRead

end Sys2Proof

namespace Sys2Proof.Machine

/-- The value a read of a slot returns (R104, R105, R109, R110, R120). -/
def State.valueAt (s : State) : Slot → Word
  | .reg .id => idValue
  | .reg .version => versionValue
  | .reg .status => statusWord s
  | .reg .crcState => s.crcState
  | .reg .crcValue => crcFinish s.crcState
  | .reg .tag => s.tag
  | .reg .len => s.len
  | .reg .rxcrc => s.rxcrc
  | .reg .rem => s.rem
  | .reg .pos => s.pos
  | .reg .chunks => s.chunks
  | .reg .cstart => s.cstart
  | .reg .tagchk => s.tagchk
  | .reg .tagres => tagresWord s.tagchk
  | .reg .ctrl | .reg .din8 | .reg .din32 | .misalignedOdd | .misalignedEven | .reserved => 0#32

theorem exec_decodeRead (slot : Slot) (off : Offset) (x : Word) (s : State) :
    exec (decodeRead slot off x) s = respond (s.valueAt slot) s := by
  cases slot with
  | reg r => cases r <;> rfl
  | misalignedOdd | misalignedEven | reserved => rfl

/-- No register shows the values read: they are the host's, not the block's. -/
theorem State.valueAt_with_rdata (s : State) (rs : List Word) (slot : Slot) :
    ({ s with rdata := rs } : State).valueAt slot = s.valueAt slot := by
  cases slot with
  | reg r => cases r <;> rfl
  | misalignedOdd | misalignedEven | reserved => rfl

/-- Settles O12: the value is that of the slot, and the first read does not change it. -/
theorem readsHaveNoSideEffect : Obligations.ReadsHaveNoSideEffect := by
  intro t s h
  rw [decode_of_bit40_false h]
  refine ⟨s.valueAt (slotOf (Txn.off t)), exec_decodeRead _ _ _ s, ?again⟩
  case again => exact (exec_decodeRead ..).trans (congrArg (respond · _) (s.valueAt_with_rdata _ _))

end Sys2Proof.Machine
end

section
/-! The register window on the platform: which addresses select an offset, inside the window and outside it. -/

namespace Sys2Proof.Machine

theorem offsetOfAddress_inside {a : Nat} (above : Config.base ≤ a) (below : a < Config.base + 256) :
    offsetOfAddress a = some (BitVec.ofNat 8 (a - Config.base)) := if_pos ⟨above, below⟩

theorem offsetOfAddress_outside {a : Nat} (h : a < Config.base ∨ Config.base + 256 ≤ a) :
    offsetOfAddress a = Config.aliasOffset a := if_neg (by omega)

theorem offsetOfAddress_platformAddress (off : Offset) : offsetOfAddress (platformAddress off) = some off := by
  unfold platformAddress
  rw [offsetOfAddress_inside (by omega) (by omega), Nat.add_sub_cancel_left, BitVec.ofNat_toNat, BitVec.setWidth_eq]

/-- Within the window only BASE + OFF selects OFF: an address stands less than 256 above BASE, so its offset keeps it. -/
theorem eq_platformAddress_of_offsetOfAddress {off : Offset} {a : Nat} (above : Config.base ≤ a)
    (below : a < Config.base + 256) (h : offsetOfAddress a = some off) : a = platformAddress off := by
  rw [offsetOfAddress_inside above below] at h
  obtain rfl := Option.some.inj h
  have small : (a - Config.base) % 2 ^ 8 = a - Config.base := Nat.mod_eq_of_lt (by omega)
  rw [platformAddress, BitVec.toNat_ofNat, small]
  omega

/-- Settles O41: `offsetOfAddress` inside and outside the window, for every BASE and every alias function. -/
theorem windowAddresses : Obligations.WindowAddresses := by
  intro off a
  refine ⟨rfl, offsetOfAddress_platformAddress off, fun above below => ⟨?only, ?selects⟩, offsetOfAddress_outside⟩
  case only => exact eq_platformAddress_of_offsetOfAddress above below
  case selects => rintro rfl; exact offsetOfAddress_platformAddress off

end Sys2Proof.Machine
end

section
/-! The transaction word, the decoder and the encoder against each other and against the opcode table (30_encoding.md). -/

namespace Sys2Proof

/-! ### The word (R70) -/

theorem word_eq_shifts (w : BitVec 1) (off : Offset) (v : Word) :
    word w off v = w.setWidth 41 <<< 40 ||| off.setWidth 41 <<< 32 ||| v.setWidth 41 := by
  apply BitVec.eq_of_getLsbD_eq
  intro i hi
  rw [word_getLsbD]
  by_cases inData : i < 32
  · simp [inData, hi, show i < 40 by omega]
  · have noData : v.getLsbD i = false := BitVec.getLsbD_of_ge v i (by omega)
    by_cases inOff : i < 40
    · simp [inData, inOff, hi, noData]
    · have noOff : off.getLsbD (i - 32) = false := BitVec.getLsbD_of_ge off (i - 32) (by omega)
      simp [inData, inOff, hi, noData, noOff]

/-- Settles O1: the word bit by bit, and its three fields. -/
theorem transactionWordLayout : Obligations.TransactionWordLayout := by
  intro w off v
  exact ⟨word_eq_shifts w off v, Txn.w_word w off v, Txn.off_word w off v, Txn.wdata_word w off v⟩

/-- Settles O2: the decoder run on the thirteen words. -/
theorem sampleWordsDecode : Obligations.SampleWordsDecode := by
  exact ⟨rfl, rfl, rfl, rfl, rfl, rfl, rfl, rfl, rfl, rfl, rfl, rfl, rfl⟩

/-! ### Decode of encode -/

theorem decode_write_reg (r : Reg) (v : Word) :
    decode (word 1#1 (regOffset r) v) = decodeWrite (.reg r) (regOffset r) v := by
  rw [decode_write, slotOf_regOffset]

theorem decode_command (c : BitVec 4) (ignored : BitVec 28) :
    decode (word 1#1 (regOffset .ctrl) (ignored ++ c)) = decodeCommand c ignored := by
  rw [decode_write_reg]
  exact congrArg₂ decodeCommand (low_command ignored c) (high_command ignored c)

theorem decode_din8 (b : Byte) (ignored : BitVec 24) :
    decode (word 1#1 (regOffset .din8) (ignored ++ b)) = .wrDin8 b ignored := by
  rw [decode_write_reg]
  exact congrArg₂ Instr.wrDin8 (low_byte ignored b) (high_byte ignored b)

/-- Settles O4: each format is read back by the decoder's equation for it; the offset of a misaligned or reserved transaction
selects its slot because the instruction is well-formed. -/
theorem decodeOfEncodeIsTheInstruction : Obligations.DecodeOfEncodeIsTheInstruction := by
  intro i wf
  cases i
  case rdId | rdVersion | rdCtrl | rdStatus | rdCrcState | rdCrcValue | rdDin8 | rdDin32 | rdTag | rdLen | rdRxcrc | rdRem
    | rdPos | rdChunks | rdCstart | rdTagchk | rdTagres => exact Machine.decode_read_reg _ _
  case wrId | wrVersion | wrStatus | wrCrcState | wrCrcValue | wrTag | wrLen | wrRxcrc | wrRem | wrPos | wrChunks | wrCstart
    | wrTagchk | wrTagres => exact decode_write_reg _ _
  case cmdNop | cmdCrcStart | cmdFrameStart | cmdChunkStart | cmdStreamStart | cmdEnd | cmdAbort | cmdClrIgn =>
    exact decode_command _ _
  case cmdReserved c g => exact (decode_command c g).trans (decodeCommand_reserved c g wf)
  case wrDin8 b g => exact decode_din8 b g
  case wrDin32 a b c d => exact (decode_write_reg _ _).trans (decode_din32 a b c d)
  case rdMisalignedOdd off v => rw [encode, decode_read, slotOf_odd off wf]; rfl
  case wrMisalignedOdd off v => rw [encode, decode_write, slotOf_odd off wf]; rfl
  case rdMisalignedEven off v => rw [encode, decode_read, slotOf_even off wf]; rfl
  case wrMisalignedEven off v => rw [encode, decode_write, slotOf_even off wf]; rfl
  case rdReserved off v => rw [encode, decode_read, slotOf_reserved off wf]; rfl
  case wrReserved off v => rw [encode, decode_write, slotOf_reserved off wf]; rfl

/-! ### Encode of decode -/

/-- The instruction is a transaction and its word is `t`: what the decoder gives for `t`. -/
def Instr.Spells (i : Instr) (t : Txn) : Prop := i.wellFormed = true ∧ encode i = t

theorem decodeCommand_spells (c : BitVec 4) (ignored : BitVec 28) :
    (decodeCommand c ignored).Spells (word 1#1 (regOffset .ctrl) (ignored ++ c)) := by
  cases h : reservedCommand c with
  | true => rw [decodeCommand_reserved c ignored h]; exact ⟨h, rfl⟩
  | false =>
    have named : ∀ c : BitVec 4, reservedCommand c = false →
        c = 0#4 ∨ c = 1#4 ∨ c = 2#4 ∨ c = 3#4 ∨ c = 4#4 ∨ c = 5#4 ∨ c = 6#4 ∨ c = 7#4 := by decide
    obtain rfl | rfl | rfl | rfl | rfl | rfl | rfl | rfl := named c h <;> exact ⟨rfl, rfl⟩

theorem decodeRead_spells (off : Offset) (v : Word) : (decodeRead (slotOf off) off v).Spells (word 0#1 off v) := by
  obtain ⟨r, -, hs, rfl⟩ | ⟨hs, h⟩ | ⟨hs, h⟩ | ⟨hs, h⟩ := slotOf_cases off <;> rw [hs]
  · cases r <;> exact ⟨rfl, rfl⟩
  all_goals exact ⟨h, rfl⟩

theorem decodeWrite_reg_spells (r : Reg) (v : Word) :
    (decodeWrite (.reg r) (regOffset r) v).Spells (word 1#1 (regOffset r) v) := by
  cases r
  case ctrl =>
    have spelled := decodeCommand_spells (v.extractLsb' 0 4) (v.extractLsb' 4 28)
    rwa [command_word] at spelled
  case din8 => exact ⟨rfl, congrArg (word 1#1 _) (din8_word v)⟩
  case din32 => exact ⟨rfl, congrArg (word 1#1 _) (din32_word v)⟩
  all_goals exact ⟨rfl, rfl⟩

theorem decodeWrite_spells (off : Offset) (v : Word) : (decodeWrite (slotOf off) off v).Spells (word 1#1 off v) := by
  obtain ⟨r, -, hs, rfl⟩ | ⟨hs, h⟩ | ⟨hs, h⟩ | ⟨hs, h⟩ := slotOf_cases off <;> rw [hs]
  · exact decodeWrite_reg_spells r v
  all_goals exact ⟨h, rfl⟩

/-- What the decoder gives for a word spells it: the word is a read or a write of its three fields. -/
theorem decode_spells (t : Txn) : (decode t).Spells t := by
  have fields := word_fields t
  obtain ⟨hw, hd⟩ | ⟨hw, hd⟩ := txn_read_or_write t
  · rw [hw] at fields
    have spelled := decodeRead_spells (Txn.off t) (Txn.wdata t)
    rwa [← hd, fields] at spelled
  · rw [hw] at fields
    have spelled := decodeWrite_spells (Txn.off t) (Txn.wdata t)
    rwa [← hd, fields] at spelled

/-- Settles O5: `decode_spells` says it. -/
theorem encodeOfDecodeIsTheWord : Obligations.EncodeOfDecodeIsTheWord := decode_spells

end Sys2Proof
end

section
/-! The opcode table against the decoder (30_encoding.md R75). The rows exclude each other, so the one row that
`Laws.EncodingRow` gives for the decoded instruction is all that the procedure finds. -/

namespace Sys2Proof

/-! ### A row for every instruction -/

open Laws.EncodingRow in
/-- The 48 lemmas of the family `Laws.EncodingRow` as one. -/
theorem encodingRow : ∀ i : Instr, Statement i
  | .rdId a => rdId a | .wrId a => wrId a | .rdVersion a => rdVersion a | .wrVersion a => wrVersion a
  | .rdCtrl a => rdCtrl a | .cmdNop a => cmdNop a | .cmdCrcStart a => cmdCrcStart a | .cmdFrameStart a => cmdFrameStart a
  | .cmdChunkStart a => cmdChunkStart a | .cmdStreamStart a => cmdStreamStart a | .cmdEnd a => cmdEnd a
  | .cmdAbort a => cmdAbort a | .cmdClrIgn a => cmdClrIgn a | .cmdReserved a b => cmdReserved a b
  | .rdStatus a => rdStatus a | .wrStatus a => wrStatus a | .rdCrcState a => rdCrcState a | .wrCrcState a => wrCrcState a
  | .rdCrcValue a => rdCrcValue a | .wrCrcValue a => wrCrcValue a | .rdDin8 a => rdDin8 a | .wrDin8 a b => wrDin8 a b
  | .rdDin32 a => rdDin32 a | .wrDin32 a b c d => wrDin32 a b c d | .rdTag a => rdTag a | .wrTag a => wrTag a
  | .rdLen a => rdLen a | .wrLen a => wrLen a | .rdRxcrc a => rdRxcrc a | .wrRxcrc a => wrRxcrc a | .rdRem a => rdRem a
  | .wrRem a => wrRem a | .rdPos a => rdPos a | .wrPos a => wrPos a | .rdChunks a => rdChunks a
  | .wrChunks a => wrChunks a | .rdCstart a => rdCstart a | .wrCstart a => wrCstart a | .rdTagchk a => rdTagchk a
  | .wrTagchk a => wrTagchk a | .rdTagres a => rdTagres a | .wrTagres a => wrTagres a
  | .rdMisalignedOdd a b => rdMisalignedOdd a b | .rdMisalignedEven a b => rdMisalignedEven a b
  | .wrMisalignedOdd a b => wrMisalignedOdd a b | .wrMisalignedEven a b => wrMisalignedEven a b
  | .rdReserved a b => rdReserved a b | .wrReserved a b => wrReserved a b

/-! ### Rows that exclude each other -/

/-- No word matches both rows: they fix some bit in two ways. -/
def Row.excludes (r r' : Row) : Bool := r.pattern &&& r'.mask != r'.pattern &&& r.mask

theorem Row.not_applies_of_excludes {r r' : Row} {t : Txn} (h : r.excludes r' = true) (hr : r.applies t = true) :
    ¬r'.applies t = true := by
  intro hr'
  simp only [Row.applies, Row.excludes, beq_iff_eq, bne_iff_ne] at h hr hr'
  apply h
  rw [← hr, ← hr', BitVec.and_assoc, BitVec.and_assoc, BitVec.and_comm r.mask]

/-- Of rows that exclude each other one that applies is all that apply. -/
theorem filter_applies_eq_singleton {rows : List Row} {t : Txn} {r : Row}
    (h : rows.Pairwise (fun r r' => r.excludes r' = true)) (hr : r ∈ rows) (hit : r.applies t = true) :
    rows.filter (fun r => r.applies t) = [r] := by
  induction rows with
  | nil => cases hr
  | cons r' rows ih =>
    obtain ⟨others, rest⟩ := List.pairwise_cons.1 h
    obtain rfl | hr := List.mem_cons.1 hr
    · have noOther : rows.filter (fun r => r.applies t) = [] := by
        rw [List.filter_eq_nil_iff]
        exact fun q hq => Row.not_applies_of_excludes (others q hq) hit
      rw [List.filter_cons, if_pos hit, noOther]
    · have miss : ¬r'.applies t = true := fun hit' => Row.not_applies_of_excludes (others r hr) hit' hit
      rw [List.filter_cons, if_neg miss, ih rest hr]

theorem tableRows_exclude : tableRows.Pairwise (fun r r' => r.excludes r' = true) := by decide

theorem fallbackRows_exclude : fallbackRows.Pairwise (fun r r' => r.excludes r' = true) := by decide

/-! ### What a row says of the offset -/

/-- A row that applies to a word has its OFF bits. -/
theorem Row.off_of_applies {r : Row} {t : Txn} (h : r.applies t = true) :
    Txn.off t &&& Txn.off r.mask = Txn.off r.pattern := by
  rw [Row.applies, beq_iff_eq] at h
  rw [← h]
  exact BitVec.extractLsb'_and.symm

/-- A row but the fallback rows names an offset that is not reserved, or asks for a misaligned one. -/
theorem tableRows_off : ∀ r ∈ tableRows,
    (Txn.off r.mask = 0xFF#8 ∧ reservedOffset (Txn.off r.pattern) = false)
      ∨ (Txn.off r.mask = 0x01#8 ∧ Txn.off r.pattern = 0x01#8)
      ∨ (Txn.off r.mask = 0x03#8 ∧ Txn.off r.pattern = 0x02#8) := by decide

theorem not_reservedOffset_of_misaligned_bits : ∀ off : Offset, off &&& 0x01#8 = 0x01#8 ∨ off &&& 0x03#8 = 0x02#8 →
    reservedOffset off = false := by decide

theorem not_reservedOffset_of_applies {r : Row} {t : Txn} (hr : r ∈ tableRows) (h : r.applies t = true) :
    reservedOffset (Txn.off t) = false := by
  have off := r.off_of_applies h
  obtain ⟨mask, pattern⟩ | ⟨mask, pattern⟩ | ⟨mask, pattern⟩ := tableRows_off r hr
  · rw [mask] at off
    rwa [← off, show Txn.off t &&& 0xFF#8 = Txn.off t from BitVec.and_allOnes] at pattern
  · rw [mask, pattern] at off
    exact not_reservedOffset_of_misaligned_bits _ (.inl off)
  · rw [mask, pattern] at off
    exact not_reservedOffset_of_misaligned_bits _ (.inr off)

/-! ### What a mnemonic says of the offset -/

theorem reservedOffset_of_mnemonic {i : Instr} (wf : i.wellFormed = true)
    (h : i.mnemonic = "RD_RESERVED" ∨ i.mnemonic = "WR_RESERVED") : reservedOffset (Txn.off (encode i)) = true := by
  cases i
  case rdReserved | wrReserved => rw [encode, Txn.off_word]; exact wf
  all_goals simp [Instr.mnemonic] at h

/-- A misaligned transaction has one of the two bits because it is well-formed, and a reserved one has neither; a register's
offset is a multiple of four. -/
theorem misaligned_mnemonic_iff {i : Instr} (wf : i.wellFormed = true) :
    i.mnemonic = "RD_MISALIGNED" ∨ i.mnemonic = "WR_MISALIGNED" ↔
      (Txn.off (encode i)).getLsbD 0 = true ∨ (Txn.off (encode i)).getLsbD 1 = true := by
  cases i
  case rdMisalignedOdd | wrMisalignedOdd | rdMisalignedEven | wrMisalignedEven =>
    simp_all [Instr.mnemonic, encode, Instr.wellFormed, misalignedOddOffset, misalignedEvenOffset]
  case rdReserved | wrReserved => simp_all [Instr.mnemonic, encode, Instr.wellFormed, reservedOffset]
  all_goals simp [Instr.mnemonic, encode, regOffset]

/-! ### The procedure (R75) -/

/-- The rows but the fallback rows that apply to a word: none where the offset is reserved, else the one of the decoded
instruction's mnemonic. -/
theorem tableRows_applying (t : Txn) :
    (reservedOffset (Txn.off t) = true ∧ tableRows.filter (fun r => r.applies t) = []
        ∧ ∃ r, r.mnemonic = (decode t).mnemonic ∧ fallbackRows.filter (fun r => r.applies t) = [r])
      ∨ (reservedOffset (Txn.off t) = false
        ∧ ∃ r, r.mnemonic = (decode t).mnemonic ∧ tableRows.filter (fun r => r.applies t) = [r]) := by
  obtain ⟨wf, spelled⟩ := decode_spells t
  obtain ⟨r, hr, name, hit⟩ := encodingRow (decode t) wf
  rw [spelled] at hit
  rcases List.mem_append.1 hr with hr | hr
  · exact .inr ⟨not_reservedOffset_of_applies hr hit, r, name, filter_applies_eq_singleton tableRows_exclude hr hit⟩
  · have names : ∀ r ∈ fallbackRows, r.mnemonic = "RD_RESERVED" ∨ r.mnemonic = "WR_RESERVED" := by decide
    have reserved := reservedOffset_of_mnemonic wf (name ▸ names r hr)
    rw [spelled] at reserved
    refine .inl ⟨reserved, ?noRow, r, name, filter_applies_eq_singleton fallbackRows_exclude hr hit⟩
    case noRow =>
      rw [List.filter_eq_nil_iff]
      intro q hq hit
      exact absurd reserved (Bool.eq_false_iff.1 (not_reservedOffset_of_applies hq hit))

theorem tableMnemonics_eq (t : Txn) : tableMnemonics t = [(decode t).mnemonic] := by
  unfold tableMnemonics
  obtain ⟨-, noRow, r, name, one⟩ | ⟨-, r, name, one⟩ := tableRows_applying t
  · rw [noRow, one, ← name]; rfl
  · rw [one, ← name]; rfl

theorem tableRows_applying_eq_nil_iff (t : Txn) :
    tableRows.filter (fun r => r.applies t) = [] ↔ reservedOffset (Txn.off t) = true := by
  obtain ⟨reserved, noRow, -⟩ | ⟨reserved, r, -, one⟩ := tableRows_applying t
  · simp [reserved, noRow]
  · simp [reserved, one]

/-- Settles O3: the one row that applies is that of `Laws.EncodingRow`; the bits of OFF are those of the word. -/
theorem decodeAgreesWithOpcodeTable : Obligations.DecodeAgreesWithOpcodeTable := by
  intro t
  have bit0 : (Txn.off t).getLsbD 0 = t.getLsbD 32 := by simp [Txn.off]
  have bit1 : (Txn.off t).getLsbD 1 = t.getLsbD 33 := by simp [Txn.off]
  obtain ⟨wf, spelled⟩ := decode_spells t
  refine ⟨tableMnemonics_eq t, ?fallback, ?misaligned⟩
  case fallback =>
    rw [tableRows_applying_eq_nil_iff, reservedOffset, bit0, bit1]
    simp only [Bool.and_eq_true, Bool.not_eq_true', decide_eq_true_eq, and_assoc]
    rfl
  case misaligned => rw [misaligned_mnemonic_iff wf, spelled, bit0, bit1]

end Sys2Proof
end

section
/-! Ignored bits of WDATA, and a byte sequence as the assembler's pushb issues it (30_encoding.md R76, R80). -/

namespace Sys2Proof.Machine

theorem exec_decodeCommand_ignored (c : BitVec 4) (g g' : BitVec 28) (s : State) :
    exec (decodeCommand c g) s = exec (decodeCommand c g') s := by
  unfold decodeCommand
  split_ifs <;> rfl

theorem exec_write_ctrl (v : Word) (s : State) :
    exec (decode (word 1#1 0x08#8 v)) s = exec (decodeCommand (v.extractLsb' 0 4) (v.extractLsb' 4 28)) s :=
  congrArg (exec · s) (decode_write_reg .ctrl v)

theorem exec_write_din8 (v : Word) (s : State) :
    exec (decode (word 1#1 0x18#8 v)) s = .next (push (v.extractLsb' 0 8) s) :=
  congrArg (exec · s) (decode_write_reg .din8 v)

/-- Settles O31: what a read answers, the command and the byte pushed are taken from the bits that agree. -/
theorem ignoredBitsPlayNoPart : Obligations.IgnoredBitsPlayNoPart := by
  intro s off v v'
  refine ⟨?read, fun same => ?command, fun same => ?din8⟩
  case read => rw [decode_read, decode_read, exec_decodeRead, exec_decodeRead]
  case command => rw [exec_write_ctrl, exec_write_ctrl, same]; exact exec_decodeCommand_ignored ..
  case din8 => rw [exec_write_din8, exec_write_din8, same]

theorem issue_cons_of_next {t : Txn} {s s' : State} (ts : List Txn) (h : exec (decode t) s = .next s') :
    issue (t :: ts) s = issue ts s' := by
  simp only [issue, h]

theorem issue_map_asmPush8 (bs : List Byte) : ∀ s : State, issue (bs.map asmPush8) s = some (pushAll bs s) := by
  induction bs with
  | nil => exact fun _ => rfl
  | cons b bs ih => intro s; rw [List.map_cons, issue_cons_of_next _ (exec_asmPush8 b s), ih, pushAll_cons]

/-- Settles O47, by the recursion of `asmPushb`: a word for four bytes, a byte write for each of the up to three left. -/
theorem pushbDeliversEveryByte : Obligations.PushbDeliversEveryByte := by
  intro bytes
  induction bytes using asmPushb.induct with
  | case1 b0 b1 b2 b3 rest ih =>
    intro s
    rw [asmPushb, issue_cons_of_next _ (exec_asmPush32 b0 b1 b2 b3 s), ih, ← pushAll_append]
    rfl
  | case2 bs short =>
    intro s
    rw [asmPushb, issue_map_asmPush8]
    exact short

end Sys2Proof.Machine
end

section
/-! What a byte does to MODE, ERR and IGN, and what that makes of a byte sequence (40_control.md R111, R118). -/

namespace Sys2Proof.Machine

/-! ### IGN and its ghost mark -/

/-- IGN and the ghost mark of R283: only an ignored access and CLR_IGN touch them. -/
def State.ignMarks (s : State) : Bool × Bool := (s.ign, s.ignSeen)

@[simp] theorem setIgn_ignMarks (s : State) : (setIgn s).ignMarks = (true, true) := rfl

/-! ### One byte of the deframer -/

/-- How the function in state `s` goes on after a byte that leads to `t` (R111, R203): it runs on, a CHUNK-mode chunk is
complete, or the byte raises an error, which is never TrailingBytes (R231). IGN stays as it was in all three. -/
inductive ByteOutcome (s t : State) : Prop
  | running (mode : t.mode = s.mode) (err : t.err = s.err) (ign : t.ignMarks = s.ignMarks)
  | complete (chunk : s.mode = .chunk) (mode : t.mode = .done) (err : t.err = s.err) (ign : t.ignMarks = s.ignMarks)
  | failed (k : ErrKind) (kind : k ≠ .trailingBytes) (mode : t.mode = .error) (err : t.err = some k)
      (ign : t.ignMarks = s.ignMarks)

theorem ByteOutcome.ignMarks {s t : State} (h : ByteOutcome s t) : t.ignMarks = s.ignMarks := by
  cases h <;> assumption

theorem deframePush_outcome (b : Byte) (s : State) : ByteOutcome s (deframePush b s) := by
  cases hp : s.phase with
  | none => rw [deframePush_none b hp]; exact .running rfl rfl rfl
  | sig =>
    rw [deframePush_sig b hp, sigPush_eq]
    split
    · exact .running rfl rfl rfl
    split
    · exact .running rfl rfl rfl
    · exact .failed .badSignature nofun rfl rfl rfl
  | bound => rw [deframePush_bound b hp, lenPush_eq]; split <;> exact .running rfl rfl rfl
  | len => rw [deframePush_len b hp, lenPush_eq]; split <;> exact .running rfl rfl rfl
  | tag =>
    rw [deframePush_tag b hp, tagPush_eq]
    split
    · exact .running rfl rfl rfl
    split
    · exact .running rfl rfl rfl
    · exact .failed .invalidTagBytes nofun rfl rfl rfl
  | data => rw [deframePush_data b hp, dataPush_eq]; exact .running rfl rfl rfl
  | crc =>
    rw [deframePush_crc b hp, checksumPush_eq]
    split
    · exact .running rfl rfl rfl
    split
    · by_cases hm : s.mode = .chunk
      · exact .complete hm (if_pos hm) rfl rfl
      · exact .running (if_neg hm) rfl rfl
    · exact .failed .checksumMismatch nofun rfl rfl rfl

/-! ### One byte -/

theorem framePush_outcome (b : Byte) (s : State) : ByteOutcome s (framePush b s) := by
  unfold framePush
  split
  · exact .failed .lengthOverflow nofun rfl rfl rfl
  · exact .running rfl rfl rfl

/-- A byte is ignored outside a function and goes to the function in one (R111). -/
theorem push_outcome (b : Byte) (s : State) :
    (startable s.mode = true ∧ push b s = setIgn s) ∨ (startable s.mode = false ∧ ByteOutcome s (push b s)) := by
  rcases push_cases b s with ignored | ⟨hm, e⟩ | ⟨hm, e⟩ | ⟨hm, e⟩
  · exact .inl ignored
  · exact .inr ⟨by rw [hm]; rfl, by rw [e]; exact .running rfl rfl rfl⟩
  · exact .inr ⟨by rw [hm]; rfl, by rw [e]; exact framePush_outcome b s⟩
  · exact .inr ⟨by rcases hm with hm | hm <;> rw [hm] <;> rfl, by rw [e]; exact deframePush_outcome b s⟩

theorem push_ignMarks {s : State} (b : Byte) (h : startable s.mode = false) : (push b s).ignMarks = s.ignMarks := by
  obtain ⟨idle, -⟩ | ⟨-, outcome⟩ := push_outcome b s
  · rw [h] at idle
    cases idle
  · exact outcome.ignMarks

/-! ### A byte sequence -/

/-- What every byte keeps, a byte sequence keeps. -/
theorem pushAll_keeps {P : State → Prop} (byte : ∀ b s, P s → P (push b s)) (bs : List Byte) {s : State} (h : P s) :
    P (pushAll bs s) :=
  List.foldlRecOn bs (fun s b => push b s) h fun s hs b _ => byte b s hs

theorem pushAll_bus (bs : List Byte) (s : State) : (pushAll bs s).bus = s.bus :=
  pushAll_keeps (P := fun t => t.bus = s.bus) (fun b t ht => (push_bus b t).trans ht) bs rfl

theorem pushAll_ignMarks (bs : List Byte) (s : State) :
    (pushAll bs s).ignMarks = s.ignMarks ∨ (pushAll bs s).ignMarks = (true, true) := by
  refine pushAll_keeps (P := fun t => t.ignMarks = s.ignMarks ∨ t.ignMarks = (true, true)) (fun b t ht => ?_) bs (.inl rfl)
  obtain ⟨-, e⟩ | ⟨-, outcome⟩ := push_outcome b t
  · exact .inr (by rw [e, setIgn_ignMarks])
  · rwa [outcome.ignMarks]

/-- A byte sequence does not lead from STREAM mode to DONE: the deframer stays in STREAM or fails (R231). -/
theorem pushAll_stream_mode (bs : List Byte) {s : State} (h : s.mode = .stream) :
    (pushAll bs s).mode = .stream ∨ (pushAll bs s).mode = .error := by
  refine pushAll_keeps (P := fun t => t.mode = .stream ∨ t.mode = .error) (fun b t ht => ?_) bs (.inl h)
  obtain ⟨-, e⟩ | ⟨-, outcome⟩ := push_outcome b t
  · rwa [e, setIgn_mode]
  · cases outcome with
    | running mode => rwa [mode]
    | complete chunk => rw [chunk] at ht; simp at ht
    | failed _ _ mode => exact .inr mode

theorem pushAll_err_ne_trailingBytes (bs : List Byte) {s : State} (h : s.err ≠ some .trailingBytes) :
    (pushAll bs s).err ≠ some .trailingBytes := by
  refine pushAll_keeps (P := fun t => t.err ≠ some .trailingBytes) (fun b t ht => ?_) bs h
  obtain ⟨-, e⟩ | ⟨-, outcome⟩ := push_outcome b t
  · rwa [e, setIgn_err]
  · cases outcome with
    | running _ err | complete _ _ err => rwa [err]
    | failed k kind _ err => rw [err]; exact fun same => kind (Option.some.inj same)

end Sys2Proof.Machine
end

section
/-! Rules over all transactions: each completes (40_control.md R100), which are ignored (R101, R102), and what becomes of
IGN, the ghost mark, DONE and TrailingBytes (R119, R231, R283). -/

namespace Sys2Proof.Machine

theorem exec_completes (i : Instr) (s : State) : ∃ t, exec i s = .next t := by
  cases i <;> exact ⟨_, rfl⟩

/-! ### The ignored access -/

/-- Where R101 calls a transaction ignored, it is an ignored access (R102). -/
theorem exec_of_refused {i : Instr} {s : State} (h : accepted s.mode i = false) : exec i s = .next (setIgn s) := by
  cases i
  case wrId | wrVersion | wrStatus | wrCrcValue | wrLen | wrRxcrc | wrRem | wrPos | wrChunks | wrCstart | wrTagres
    | cmdReserved | wrMisalignedOdd | wrMisalignedEven | wrReserved => rfl
  case cmdCrcStart | cmdFrameStart | cmdChunkStart | cmdStreamStart =>
    exact congrArg Host.Outcome.next (whenStartable_active _ h)
  case wrCrcState | wrTag => exact congrArg Host.Outcome.next (whenHostWritable_refused _ h)
  case cmdEnd => exact congrArg Host.Outcome.next (endInput_startable (by simpa [accepted] using h))
  case wrDin8 b _ => exact congrArg Host.Outcome.next (push_startable b (by simpa [accepted] using h))
  case wrDin32 a b c d =>
    exact congrArg Host.Outcome.next (pushAll_startable [a, b, c, d] (by simpa [accepted] using h))
  all_goals cases h

/-! ### IGN and the bus -/

theorem frameStart_bus_ignMarks (s : State) :
    (frameStart s).bus = s.bus ∧ (frameStart s).ignMarks = s.ignMarks := by
  unfold frameStart
  split <;> exact ⟨rfl, rfl⟩

/-- Which transactions touch IGN: an ignored access, CLR_IGN, and a data input whose function ends before its last byte. -/
theorem Transacts.ign_cases {i : Instr} {s t : State} (ht : Transacts i s t) :
    (accepted s.mode i = false ∧ t = setIgn s)
      ∨ (∃ g, i = .cmdClrIgn g ∧ t = { s with ign := false })
      ∨ (∃ bs, i.inputBytes = some bs ∧ startable s.mode = false ∧ t = pushAll bs s)
      ∨ t.ignMarks = s.ignMarks := by
  cases ht with
  | ignored refused => exact .inl ⟨refused, rfl⟩
  | @clrIgn g => exact .inr (.inl ⟨g, rfl, rfl⟩)
  | input bytes guard => exact .inr (.inr (.inl ⟨_, bytes, guard, rfl⟩))
  | frameStart => exact .inr (.inr (.inr (frameStart_bus_ignMarks s).2))
  | endInput guard =>
    obtain ⟨m, e, he⟩ := endInput_running guard
    exact .inr (.inr (.inr (by rw [he]; rfl)))
  | read | nop | abort | crcStart | chunkStart | streamStart | crcState | tag | tagchk => exact .inr (.inr (.inr rfl))

theorem Transacts.bus {i : Instr} {s t : State} (ht : Transacts i s t) : t.bus = s.bus := by
  cases ht with
  | input => exact pushAll_bus _ s
  | frameStart => exact (frameStart_bus_ignMarks s).1
  | endInput guard =>
    obtain ⟨m, e, he⟩ := endInput_running guard
    rw [he]
  | ignored | read | nop | clrIgn | abort | crcStart | chunkStart | streamStart | crcState | tag | tagchk => rfl

/-- A transaction keeps IGN and its ghost mark or sets them both, and CLR_IGN clears IGN (R102, R119, R283). -/
theorem Transacts.ign_and_mark {i : Instr} {s t : State} (ht : Transacts i s t) :
    (t.ign = s.ign ∧ t.ignSeen = s.ignSeen) ∨ (t.ign = true ∧ t.ignSeen = true)
      ∨ ((∃ g, i = .cmdClrIgn g) ∧ t.ign = false ∧ t.ignSeen = s.ignSeen) := by
  obtain ⟨-, rfl⟩ | ⟨g, rfl, rfl⟩ | ⟨bs, -, -, rfl⟩ | kept := ht.ign_cases
  · exact .inr (.inl ⟨rfl, rfl⟩)
  · exact .inr (.inr ⟨⟨g, rfl⟩, rfl, rfl⟩)
  · exact (pushAll_ignMarks bs s).imp Prod.mk.inj (.inl ∘ Prod.mk.inj)
  · exact .inl (Prod.mk.inj kept)

theorem Transacts.ign_sticky {i : Instr} {s t : State} (ht : Transacts i s t) (notClrIgn : ∀ g, i ≠ .cmdClrIgn g)
    (h : s.ign = true) : t.ign = true := by
  obtain ⟨ign, -⟩ | ⟨ign, -⟩ | ⟨⟨g, clrIgn⟩, -⟩ := ht.ign_and_mark
  · rw [ign, h]
  · exact ign
  · exact absurd clrIgn (notClrIgn g)

theorem Transacts.ignSeen_sticky {i : Instr} {s t : State} (ht : Transacts i s t) (h : s.ignSeen = true) :
    t.ignSeen = true := by
  obtain ⟨-, mark⟩ | ⟨-, mark⟩ | ⟨-, -, mark⟩ := ht.ign_and_mark
  · rw [mark, h]
  · exact mark
  · rw [mark, h]

/-- The ghost mark records every time IGN becomes 1 (R283). -/
theorem Transacts.ignSeen_of_ign_set {i : Instr} {s t : State} (ht : Transacts i s t) (before : s.ign = false)
    (after : t.ign = true) : t.ignSeen = true := by
  obtain ⟨ign, -⟩ | ⟨-, mark⟩ | ⟨-, ign, -⟩ := ht.ign_and_mark
  · cases after.symm.trans (ign.trans before)
  · exact mark
  · cases after.symm.trans ign

/-- Settles O30: every arm of `exec` answers a next state; the rest is what `Transacts` says of the bus and of IGN. -/
theorem everyTransactionCompletesAndIgnIsSticky : Obligations.EveryTransactionCompletesAndIgnIsSticky := by
  intro i s
  obtain ⟨t, h⟩ := exec_completes i s
  have ht := exec_transacts h
  exact ⟨t, h, ht.bus, fun set notClrIgn => ht.ign_sticky notClrIgn set, ht.ignSeen_sticky, ht.ignSeen_of_ign_set⟩

/-- Settles O29: refused, it is an ignored access; accepted, it leaves IGN or clears it, and the one byte of a WR_DIN8 finds
a running function. -/
theorem acceptanceTable : Obligations.AcceptanceTable := by
  refine fun i s => ⟨exec_of_refused, fun accepts notDin32 => ?_⟩
  obtain ⟨t, h⟩ := exec_completes i s
  refine ⟨t, h, fun set => ?_⟩
  obtain ⟨refused, -⟩ | ⟨g, -, rfl⟩ | ⟨bs, bytes, running, rfl⟩ | kept := (exec_transacts h).ign_cases
  · rw [refused] at accepts
    cases accepts
  · cases set
  · obtain ⟨b, g, rfl⟩ | ⟨a, b, c, d, rfl⟩ := i.eq_of_inputBytes bytes
    · cases bytes
      exact (congrArg Prod.fst (push_ignMarks b running)).symm.trans set
    · exact absurd rfl (notDin32 a b c d)
  · exact (congrArg Prod.fst kept).symm.trans set

/-! ### END -/

/-- END alone leads from STREAM mode to DONE (R231). -/
theorem Transacts.end_of_stream_done {i : Instr} {s t : State} (ht : Transacts i s t) (before : s.mode = .stream)
    (after : t.mode = .done) : ∃ g, i = .cmdEnd g := by
  cases ht with
  | @endInput g => exact ⟨g, rfl⟩
  | input =>
    obtain stays | fails := pushAll_stream_mode _ before
    · rw [stays] at after
      cases after
    · rw [fails] at after
      cases after
  | abort => cases after
  | crcStart guard | frameStart guard | chunkStart guard | streamStart guard => rw [before] at guard; cases guard
  | ignored | read | nop | clrIgn | crcState | tag | tagchk => cases before.symm.trans after

theorem frameStart_err (s : State) : (frameStart s).err = none ∨ (frameStart s).err = some .invalidTagBytes := by
  unfold frameStart
  split
  · exact .inl rfl
  · exact .inr rfl

/-- END alone raises TrailingBytes (R231). -/
theorem Transacts.end_of_trailingBytes {i : Instr} {s t : State} (ht : Transacts i s t)
    (after : t.err = some .trailingBytes) (before : s.err ≠ some .trailingBytes) : ∃ g, i = .cmdEnd g := by
  cases ht with
  | @endInput g => exact ⟨g, rfl⟩
  | input => exact absurd after (pushAll_err_ne_trailingBytes _ before)
  | frameStart => obtain e | e := frameStart_err s <;> rw [e] at after <;> cases after
  | abort | crcStart | chunkStart | streamStart => cases after
  | ignored | read | nop | clrIgn | crcState | tag | tagchk => exact absurd after before

/-- Settles O20: END by mode and, in STREAM, by phase; that nothing else reaches DONE from STREAM or raises TrailingBytes is
read off `Transacts`. -/
theorem endFinishesEachMode : Obligations.EndFinishesEachMode := by
  refine ⟨fun s g inPhase => ⟨decode_command 0x5#4 g, congrArg Host.Outcome.next ?byMode⟩, fun i s t h => ⟨?done, ?trailing⟩⟩
  case byMode =>
    obtain ⟨mode, _, _, _, _, phase⟩ := s
    cases mode with
    | idle | crc | frame | chunk | done | error => rfl
    | stream =>
      cases phase with
      | none => exact absurd rfl (inPhase rfl)
      | sig | len | tag | data | crc | bound => rfl
  case done => exact (exec_transacts h).end_of_stream_done
  case trailing => exact (exec_transacts h).end_of_trailingBytes

/-! ### NOP, ABORT, CLR_IGN -/

/-- Settles O16: the three effects are those of the model's definitions; IGN is sticky under every other instruction. -/
theorem nopAbortAndClrIgn : Obligations.NopAbortAndClrIgn := by
  intro s g
  refine ⟨⟨decode_command 0x0#4 g, rfl⟩, ⟨decode_command 0x6#4 g, rfl⟩, ⟨decode_command 0x7#4 g, rfl⟩, ?only⟩
  intro i t h set cleared
  by_contra notClrIgn
  rw [(exec_transacts h).ign_sticky (not_exists.1 notClrIgn) set] at cleared
  cases cleared

end Sys2Proof.Machine
end

section
/-! The step on a transaction, and the transactions whose offset alone says what they do: constant and write-only registers,
read-only registers, misaligned and reserved offsets (40_control.md R103 to R110, R116, R120); WR_DIN32 (R118). -/

namespace Sys2Proof

/-! ### Offsets by their bits (10_state.md R43) -/

section
variable {off : Offset}

theorem slotOf_of_bits_10 (bit0 : off.getLsbD 0 = false) (bit1 : off.getLsbD 1 = true) :
    slotOf off = .misalignedEven := slotOf_even off (by simp only [misalignedEvenOffset, bit0, bit1]; rfl)

theorem slotOf_of_aligned_high (bit0 : off.getLsbD 0 = false) (bit1 : off.getLsbD 1 = false) (high : 0x44#8 ≤ off) :
    slotOf off = .reserved :=
  slotOf_reserved off (by simp only [reservedOffset, bit0, bit1, decide_eq_true high]; rfl)

end

theorem reservedCommand_of_le : ∀ c : BitVec 4, 0x8#4 ≤ c → reservedCommand c = true := by decide

end Sys2Proof

namespace Sys2Proof.Machine

/-- Settles O6: `step_of_bus_transaction` says it. -/
theorem stepPerformsTheDecodedTransaction : Obligations.StepPerformsTheDecodedTransaction :=
  fun _ _ _ => step_of_bus_transaction

/-- Settles O7: the offsets are those of the five registers, and each read answers its constant. -/
theorem constantsAndWriteOnlyRegistersRead : Obligations.ConstantsAndWriteOnlyRegistersRead := by
  intro s x
  exact ⟨⟨decode_read_reg .id x, rfl⟩, ⟨decode_read_reg .version x, rfl⟩, ⟨decode_read_reg .ctrl x, rfl⟩,
    ⟨decode_read_reg .din8 x, rfl⟩, ⟨decode_read_reg .din32 x, rfl⟩⟩

/-- Settles O11: the bits of the offset select the slot, whose read answers 0. -/
theorem misalignedAndReservedReadsGiveZero : Obligations.MisalignedAndReservedReadsGiveZero := by
  intro s off x
  refine ⟨fun bit0 => ?odd, fun bit0 bit1 => ?even, fun bit0 bit1 high => ?reserved, rfl, rfl, rfl⟩
  case odd => rw [decode_read, slotOf_odd off bit0]; rfl
  case even => rw [decode_read, slotOf_of_bits_10 bit0 bit1]; rfl
  case reserved => rw [decode_read, slotOf_of_aligned_high bit0 bit1 high]; rfl

/-- Settles O13: the offsets are those of the eleven registers, and the write is an ignored access in every state. -/
theorem writesToReadOnlyRegistersAreIgnored : Obligations.WritesToReadOnlyRegistersAreIgnored := by
  intro s v t
  exact ⟨⟨decode_write_reg .id v, rfl⟩, ⟨decode_write_reg .version v, rfl⟩, ⟨decode_write_reg .status v, rfl⟩,
    ⟨decode_write_reg .crcValue v, rfl⟩, ⟨decode_write_reg .len v, rfl⟩, ⟨decode_write_reg .rxcrc v, rfl⟩,
    ⟨decode_write_reg .rem v, rfl⟩, ⟨decode_write_reg .pos v, rfl⟩, ⟨decode_write_reg .chunks v, rfl⟩,
    ⟨decode_write_reg .cstart v, rfl⟩, ⟨decode_write_reg .tagres v, rfl⟩⟩

/-- Settles O14: the bits of the offset, or of CMD, select the row, and its write is an ignored access in every state. -/
theorem misalignedAndReservedWritesAreIgnored : Obligations.MisalignedAndReservedWritesAreIgnored := by
  intro s off v c g t
  refine ⟨fun bit0 => ?odd, fun bit0 bit1 => ?even, fun bit0 bit1 high => ?reserved, fun high => ?command,
    rfl, rfl, rfl, rfl⟩
  case odd => rw [decode_write, slotOf_odd off bit0]; rfl
  case even => rw [decode_write, slotOf_of_bits_10 bit0 bit1]; rfl
  case reserved => rw [decode_write, slotOf_of_aligned_high bit0 bit1 high]; rfl
  case command => exact (decode_command c g).trans (decodeCommand_reserved c g (reservedCommand_of_le c high))

/-- In ERROR and in DONE no function runs: a byte sequence, if there is one, only sets IGN. -/
theorem pushAll_cons_ended {s : State} (b : Byte) (bs : List Byte) (h : s.mode = .error ∨ s.mode = .done) :
    pushAll (b :: bs) s = setIgn s := by
  have idle : startable s.mode = true := by rcases h with h | h <;> rw [h] <;> rfl
  exact pushAll_startable (b :: bs) idle

/-- Settles O27: WR_DIN32 pushes the bytes that four WR_DIN8 push; after one that ends the function the others are ignored. -/
theorem din32IsFourDin8 : Obligations.Din32IsFourDin8 := by
  intro s v g
  refine ⟨_, _, _, _, _, _, _, _, rfl, rfl, rfl, rfl, decode_write_reg .din32 v, rfl, rfl, rfl, rfl, rfl, ?one, ?two, ?three⟩
  case one => exact pushAll_cons_ended _ [_, _]
  case two => exact pushAll_cons_ended _ [_]
  case three => exact pushAll_cons_ended _ []

end Sys2Proof.Machine
end

section
/-! Tags: the byte-wise order of words, TAGRES bit by bit, and the host writes by mode (41_tag.md R133 to R135). -/

namespace Sys2Proof.Machine

/-! ### The byte-wise order (R133) -/

theorem toNat_append_byte {w : Nat} (x : BitVec w) (b : Byte) : (x ++ b).toNat = x.toNat * 256 + b.toNat := by
  rw [BitVec.toNat_append, ← Nat.shiftLeft_add_eq_or_of_lt b.isLt, Nat.shiftLeft_eq]

/-- Two words of four bytes compare as the bytes do at the first place where they differ. -/
theorem ofWire_lt_iff (a0 a1 a2 a3 b0 b1 b2 b3 : Byte) :
    ofWire a0 a1 a2 a3 < ofWire b0 b1 b2 b3 ↔
      ((a0 < b0 ∨ a0 = b0 ∧ a1 < b1) ∨ (a0 = b0 ∧ a1 = b1) ∧ a2 < b2) ∨ ((a0 = b0 ∧ a1 = b1) ∧ a2 = b2) ∧ a3 < b3 := by
  simp only [ofWire, BitVec.lt_def, ← BitVec.toNat_inj, toNat_append_byte]
  omega

/-- A word is its four wire bytes (R52). -/
theorem wireByte_ext_iff (a b : Word) : a = b ↔ ∀ i < 4, wireByte a i = wireByte b i := by
  refine ⟨fun h _ _ => by rw [h], fun h => ?_⟩
  rw [← ofWire_wireByte a, h 0 (by decide), h 1 (by decide), h 2 (by decide), h 3 (by decide), ofWire_wireByte]

/-- The unsigned order decides at the first wire byte where two words differ. -/
theorem lt_iff_wireByte (a b : Word) :
    a < b ↔ ∃ i < 4, (∀ j < i, wireByte a j = wireByte b j) ∧ wireByte a i < wireByte b i := by
  have bytes := ofWire_lt_iff (wireByte a 0) (wireByte a 1) (wireByte a 2) (wireByte a 3)
    (wireByte b 0) (wireByte b 1) (wireByte b 2) (wireByte b 3)
  rw [ofWire_wireByte, ofWire_wireByte] at bytes
  simpa only [Nat.exists_lt_succ_right, Nat.forall_lt_succ_right, Nat.not_lt_zero, false_and, exists_false, false_imp_iff,
    implies_true, true_and, false_or] using bytes

/-- Settles O59: a word is its four wire bytes, and the first of them that differs decides. -/
theorem tagOrderIsByteWise : Obligations.TagOrderIsByteWise := by
  intro a b
  refine ⟨wireByte_ext_iff a b, ?order⟩
  case order => rw [tagLe, decide_eq_true_iff, Std.le_iff_lt_or_eq, or_comm, lt_iff_wireByte]

/-! ### TAGRES, bit by bit (R42, R134) -/

theorem isLetter_iff (b : Byte) :
    isLetter b = true ↔ (0x41#8 ≤ b ∧ b ≤ 0x5A#8) ∨ (0x61#8 ≤ b ∧ b ≤ 0x7A#8) := by
  simp only [isLetter, Bool.or_eq_true, Bool.and_eq_true, decide_eq_true_iff]

section
variable (t : Word)

theorem validTag_iff : validTag t = true ↔ isLetter (wireByte t 0) = true ∧ isLetter (wireByte t 1) = true
    ∧ isLetter (wireByte t 2) = true ∧ isLetter (wireByte t 3) = true := by
  simp only [validTag, Bool.and_eq_true, and_assoc]

theorem tagresWord_valid : (tagresWord t).getLsbD 0 = validTag t := by simp [tagresWord, bitAt]

theorem tagresWord_crit : (tagresWord t).getLsbD 1 = critical t := by simp [tagresWord, bitAt]

/-- Bit 2 + i is the verdict on wire byte i (R42). -/
theorem tagresWord_letter {i : Nat} (hi : i < 4) : (tagresWord t).getLsbD (2 + i) = isLetter (wireByte t i) := by
  interval_cases i <;> simp [tagresWord, bitAt]

theorem tagresWord_letter_iff {i : Nat} (hi : i < 4) : (tagresWord t).getLsbD (2 + i) = true ↔
    (0x41#8 ≤ wireByte t i ∧ wireByte t i ≤ 0x5A#8) ∨ (0x61#8 ≤ wireByte t i ∧ wireByte t i ≤ 0x7A#8) := by
  rw [tagresWord_letter t hi, isLetter_iff]

theorem tagresWord_reserved : (tagresWord t).extractLsb' 6 26 = 0#26 := by
  apply BitVec.eq_of_getLsbD_eq
  intro i hi
  interval_cases i <;> simp [tagresWord, bitAt]

end

/-- Settles O10: the value read is `tagresWord` of TAGCHK, whose bits stand where R42 puts them. -/
theorem tagresReadsTheVerdict : Obligations.TagresReadsTheVerdict := by
  intro s x
  refine ⟨decode_read_reg .tagres x, tagresWord s.tagchk, rfl, ?valid, ?crit, ?first, ?second, ?third, ?last,
    tagresWord_reserved s.tagchk⟩
  case valid =>
    rw [tagresWord_valid, validTag_iff]
    exact and_congr (isLetter_iff _) (and_congr (isLetter_iff _) (and_congr (isLetter_iff _) (isLetter_iff _)))
  case crit => rw [tagresWord_crit, critical, Bool.not_eq_true']
  case first => exact tagresWord_letter_iff s.tagchk (i := 0) (by decide)
  case second => exact tagresWord_letter_iff s.tagchk (i := 1) (by decide)
  case third => exact tagresWord_letter_iff s.tagchk (i := 2) (by decide)
  case last => exact tagresWord_letter_iff s.tagchk (i := 3) (by decide)

/-! ### The host writes, by mode (R135, R158, R186) -/

theorem whenHostWritable_by_mode (f : State → State) (s : State) :
    whenHostWritable f s = match s.mode with
      | .idle | .crc | .done | .error => f s
      | .frame | .chunk | .stream => setIgn s := by
  unfold whenHostWritable
  cases s.mode <;> rfl

/-- Settles O15: the offsets are those of the three registers, and two of the writes run under `whenHostWritable`. -/
theorem hostWritesByMode : Obligations.HostWritesByMode := by
  intro s v
  exact ⟨⟨decode_write_reg .tagchk v, rfl⟩,
    ⟨decode_write_reg .crcState v, congrArg Host.Outcome.next (whenHostWritable_by_mode _ s)⟩,
    ⟨decode_write_reg .tag v, congrArg Host.Outcome.next (whenHostWritable_by_mode _ s)⟩⟩

end Sys2Proof.Machine
end

section
/-! The CRC-32 engine and raw CRC mode: the laws of crc_update (42_crc.md R156), reads of the data registers, CRC_START
(R161), and a byte in CRC mode, in FRAME mode and outside a function (R157, 43_framer.md R182, 40_control.md R111). -/

namespace Sys2Proof.Machine

/-! ### The table form (R156) -/

/-- The xor with its low byte clears the low byte of a register. -/
theorem setWidth_xor_low_byte (x : Word) : (x ^^^ (x.setWidth 8).setWidth 32).setWidth 8 = 0#8 := by
  rw [BitVec.setWidth_xor, BitVec.setWidth_setWidth_of_le _ (by decide), BitVec.setWidth_eq, BitVec.xor_self]

/-- A byte stands below the bits that a shift by eight keeps. -/
theorem xor_byte_shiftRight_eight (x : Word) (b : Byte) : (x ^^^ b.setWidth 32) >>> 8 = x >>> 8 := by
  have gone : (b.setWidth 32) >>> 8 = 0#32 := by
    apply BitVec.eq_of_getLsbD_eq
    intro i _
    simp
  rw [BitVec.ushiftRight_xor_distrib, gone, BitVec.xor_zero]

/-- Eight shifts move the upper bits down and xor in the table entry of the low byte, because the shift is linear. -/
theorem crcShifts_eight (x : Word) : crcShifts 8 x = (x >>> 8) ^^^ crcByte 0#32 (x.setWidth 8) := by
  have upper : crcShifts 8 (x ^^^ (x.setWidth 8).setWidth 32) = x >>> 8 := by
    rw [crcShifts_low_byte_zero (setWidth_xor_low_byte x), xor_byte_shiftRight_eight]
  calc crcShifts 8 x
      = crcShifts 8 (x ^^^ (x.setWidth 8).setWidth 32) ^^^ crcShifts 8 ((x.setWidth 8).setWidth 32) := by
        rw [← crcShifts_xor, BitVec.xor_assoc, BitVec.xor_self, BitVec.xor_zero]
    _ = (x >>> 8) ^^^ crcByte 0#32 (x.setWidth 8) := by rw [upper, crcByte, BitVec.zero_xor]

/-- Settles O45: crc_update is a fold, CRC_INIT is its own final xor, and the byte does not reach the upper bits. -/
theorem crcComposesAndHasTheTableForm : Obligations.CrcComposesAndHasTheTableForm := by
  refine ⟨crcUpdate_append, crcFinish_crcInit, fun s b => ?table⟩
  case table => rw [crcByte, crcShifts_eight, xor_byte_shiftRight_eight]

/-! ### One changed byte (R156) -/

theorem crcByte_injective_register (b : Byte) : Function.Injective (crcByte · b) :=
  fun _ _ h => (BitVec.xor_left_inj _).1 (crcShifts_injective 8 h)

theorem crcByte_injective_byte (s : Word) : Function.Injective (crcByte s) := by
  intro b b' h
  have same : b.setWidth 32 = b'.setWidth 32 := (BitVec.xor_right_inj s).1 (crcShifts_injective 8 h)
  simpa using congrArg (BitVec.setWidth 8) same

/-- Different registers stay different through any bytes. -/
theorem crcUpdate_injective_register (m : List Byte) : Function.Injective (crcUpdate · m) := by
  induction m with
  | nil => exact fun _ _ h => h
  | cons b m ih => exact ih.comp (crcByte_injective_register b)

/-- Settles O46: the two bytes make two registers, and the suffix keeps them apart. -/
theorem crcDetectsOneChangedByte : Obligations.CrcDetectsOneChangedByte := by
  intro s p q b b' differ same
  rw [crcUpdate_append, crcUpdate_append] at same
  exact differ (crcByte_injective_byte (crcUpdate s p) (crcUpdate_injective_register q same))

/-! ### Reads of the data registers (R159, R160, R187, R188, R232 to R236, R136) -/

/-- Settles O9: the offsets are those of the ten registers, and each read responds with what its register holds. -/
theorem dataRegistersReadTheirValues : Obligations.DataRegistersReadTheirValues := by
  intro s x
  exact ⟨⟨decode_read_reg .crcState x, rfl⟩, ⟨decode_read_reg .crcValue x, rfl⟩, ⟨decode_read_reg .tag x, rfl⟩,
    ⟨decode_read_reg .len x, rfl⟩, ⟨decode_read_reg .rxcrc x, rfl⟩, ⟨decode_read_reg .rem x, rfl⟩,
    ⟨decode_read_reg .pos x, rfl⟩, ⟨decode_read_reg .chunks x, rfl⟩, ⟨decode_read_reg .cstart x, rfl⟩,
    ⟨decode_read_reg .tagchk x, rfl⟩⟩

/-! ### CRC_START, by mode (R161) -/

theorem whenStartable_by_mode (f : State → State) (s : State) :
    whenStartable f s = match s.mode with
      | .idle | .done | .error => f s
      | .crc | .frame | .chunk | .stream => setIgn s := by
  unfold whenStartable
  cases s.mode <;> rfl

/-- Settles O17: CRC_START is command 1, and `crcStart` runs under `whenStartable`. -/
theorem crcStartSeedsTheEngine : Obligations.CrcStartSeedsTheEngine := by
  intro s g
  exact ⟨decode_command 0x1#4 g, congrArg Host.Outcome.next (whenStartable_by_mode crcStart s)⟩

/-! ### A byte in CRC mode, in FRAME mode and outside a function (R157, R182, R183, R111) -/

/-- Settles O21: WR_DIN8 pushes its byte, and the mode alone says which of the three actions the Push is. -/
theorem bytesInCrcAndFrameModeAndOutsideAFunction : Obligations.BytesInCrcAndFrameModeAndOutsideAFunction := by
  intro s b g
  refine ⟨decode_din8 b g, fun mode => ?crc, fun mode _ => ?frame, fun mode => ?outside⟩
  case crc => exact congrArg Host.Outcome.next (push_crc b mode)
  case frame => exact congrArg Host.Outcome.next (push_frame b mode)
  case outside =>
    have idle : startable s.mode = true := by rcases mode with h | h | h <;> rw [h] <;> rfl
    exact congrArg Host.Outcome.next (push_startable b idle)

end Sys2Proof.Machine
end

section
/-! The progress invariant through every operation of the block: where the deframer and the framer stand (44_deframer.md
R203, R210 to R222; 43_framer.md R182), and what an error leaves (60_exceptions.md R301 to R307). -/

namespace Sys2Proof.Machine

/-! ### The deframer's progress, phase by phase -/

/-- A length field in progress, or about to begin: its chunk has nothing but length bytes (R213, R214). -/
def LengthProgress (s : State) : Prop :=
  s.pos = s.cstart + s.fcnt.setWidth 32 ∧ s.hdrv = false ∧ s.tag = 0#32 ∧ s.rxcrc = 0#32 ∧ s.rem = 0#32
    ∧ s.crcState = 0xFFFFFFFF#32

/-- What `DeframeProgress` says in one phase. -/
def PhaseProgress (s : State) : Phase → Prop
  | .none => True
  | .sig => s.pos = s.fcnt.setWidth 32 ∧ s.cstart = 0#32 ∧ s.chunks = 0#32 ∧ s.hdrv = false ∧ s.rem = 0#32
  | .bound =>
    s.rem = 0#32 ∧ (s.hdrv = false → s.pos = 8#32 ∧ s.cstart = 0#32 ∧ s.chunks = 0#32)
      ∧ (s.hdrv = true → s.pos = s.cstart + 12#32 + s.len ∧ s.rxcrc = crcFinish s.crcState)
  | .len => LengthProgress s ∧ (s.mode = .stream → s.fcnt ≠ 0#3)
  | .tag => s.pos = s.cstart + 4#32 + s.fcnt.setWidth 32 ∧ s.hdrv = false ∧ s.rxcrc = 0#32 ∧ s.rem = 0#32
  | .data => s.pos + s.rem = s.cstart + 8#32 + s.len ∧ s.hdrv = true ∧ s.rxcrc = 0#32
  | .crc => s.pos = s.cstart + 8#32 + s.len + s.fcnt.setWidth 32 ∧ s.hdrv = true ∧ s.rem = 0#32

/-- What `DeframeProgress` says in every phase behind the signature. -/
def RunProgress (s : State) : Prop :=
  (s.mode = .chunk → s.cstart = 0#32 ∧ s.chunks = 0#32) ∧ (s.mode = .stream → s.sigmatch = true)

/-- The signature phase needs no `RunProgress`: no chunk has begun there, and SIGMATCH is not yet judged. -/
theorem deframeProgress_iff {s : State} :
    DeframeProgress s ↔ PhaseProgress s s.phase ∧ (s.phase ≠ .sig → RunProgress s) := by
  cases hp : s.phase with
  | sig =>
    simp only [hp, PhaseProgress, DeframeProgress, forall_const, reduceCtorEq, false_implies, true_and, ne_eq, not_true]
    tauto
  | none | bound | len | tag | data | crc =>
    simp [hp, PhaseProgress, DeframeProgress, LengthProgress, RunProgress, and_assoc]

/-! ### ProgressInv, by what is running -/

theorem progressInv_of_phase {s : State} {p : Phase} (hm : s.mode = .chunk ∨ s.mode = .stream) (hp : s.phase = p)
    (phase : PhaseProgress s p) (run : p ≠ .sig → RunProgress s) : ProgressInv s := by
  subst hp
  refine ⟨fun _ => deframeProgress_iff.2 ⟨phase, run⟩, fun frame => ?_, fun error => ?_⟩
  · simp [frame] at hm
  · simp [error] at hm

theorem progressInv_of_error {s : State} (hm : s.mode = .error) (h : ErrorRecord s) : ProgressInv s :=
  ⟨by simp [hm], by simp [hm], fun _ => h⟩

/-- Where neither framer nor deframer runs and none has failed, there is nothing to keep. -/
theorem progressInv_of_quiet {s : State} (hm : s.mode = .idle ∨ s.mode = .crc ∨ s.mode = .done) : ProgressInv s := by
  rcases hm with hm | hm | hm <;> simp [ProgressInv, hm]

/-! ### FCNT as an offset -/

theorem setWidth_fcnt_succ {f : BitVec 3} (h : f < 7#3) : (f + 1#3).setWidth 32 = f.setWidth 32 + 1#32 := by
  revert f
  decide

/-- A byte of a four-byte field that begins at offset `x`, with more to come. -/
theorem pos_more {f : BitVec 3} {pos x : Word} (h : pos = x + f.setWidth 32) (more : f < 3#3) :
    pos + 1#32 = x + (f + 1#3).setWidth 32 := by
  rw [setWidth_fcnt_succ (by bv_omega), h, BitVec.add_assoc]

/-- The last byte of a four-byte field that begins at offset `x`: three bytes were counted before it. -/
theorem pos_last {m : Mode} {p : Phase} {f : BitVec 3} {pos x : Word} (hm : m = .chunk ∨ m = .stream)
    (hp : p = .len ∨ p = .tag ∨ p = .crc) (legal : statusLegal m p f = true) (h : pos = x + f.setWidth 32)
    (last : ¬f < 3#3) : pos + 1#32 = x + 4#32 := by
  rw [statusLegal_field f (hm.imp_right .inl) hp, decide_eq_true_eq] at legal
  have three : f = 3#3 := by bv_omega
  rw [h, three, BitVec.add_assoc]
  rfl

/-! ### A byte of the deframer -/

section
variable {s : State} (b : Byte)

/-- The eighth byte leads to BOUND at offset 8 or raises BadSignature there (R211). -/
theorem sigPush_progressInv (hm : s.mode = .stream) (hp : s.phase = .sig) (h : PhaseProgress s .sig) :
    ProgressInv (sigPush b { s with pos := s.pos + 1#32 }) := by
  obtain ⟨pos, cstart, chunks, hdrv, rem⟩ := h
  have eighth : ¬s.fcnt < 7#3 → s.pos + 1#32 = 8#32 := fun last => by
    rw [pos, show s.fcnt = 7#3 by bv_omega]
    rfl
  simp only [sigPush_eq]
  split_ifs with more ok
  · have pos : s.pos + 1#32 = (s.fcnt + 1#3).setWidth 32 := by rw [setWidth_fcnt_succ more, pos]
    exact progressInv_of_phase (.inr hm) hp ⟨pos, cstart, chunks, hdrv, rem⟩ (absurd rfl)
  · refine progressInv_of_phase (.inr hm) rfl ⟨rem, fun _ => ⟨eighth more, cstart, chunks⟩, by simp [hdrv]⟩ fun _ => ?_
    exact ⟨by simp [hm], fun _ => ok.1⟩
  · have unmatched : (s.sigmatch && decide (b = signatureByte s.fcnt)) = false := by simpa using ok
    exact progressInv_of_error rfl
      ⟨nofun, nofun, nofun, fun _ => ⟨hp, cstart, chunks, .inl ⟨eighth more, rfl, unmatched⟩⟩, nofun, nofun⟩

variable (hm : s.mode = .chunk ∨ s.mode = .stream) (legal : statusLegal s.mode s.phase s.fcnt = true)
  (run : RunProgress s)
include hm legal run

theorem lenPush_progressInv (hp : s.phase = .len) (h : LengthProgress s) :
    ProgressInv (lenPush b { s with pos := s.pos + 1#32 }) := by
  obtain ⟨pos, hdrv, tag, rxcrc, rem, crcState⟩ := h
  simp only [lenPush_eq]
  split_ifs with more
  · have begun : s.fcnt + 1#3 ≠ 0#3 := by bv_omega
    exact progressInv_of_phase hm hp ⟨⟨pos_more pos more, hdrv, tag, rxcrc, rem, crcState⟩, fun _ => begun⟩ fun _ => run
  · have pos := pos_last hm (.inl hp) legal pos more
    exact progressInv_of_phase hm rfl ⟨by simpa using pos, hdrv, rxcrc, rem⟩ fun _ => run

/-- The fourth tag byte ends the header at CSTART + 8, whatever comes next: payload, checksum or error (R215, R217). -/
theorem tagPush_progressInv (hp : s.phase = .tag) (h : PhaseProgress s .tag) :
    ProgressInv (tagPush b { s with pos := s.pos + 1#32 }) := by
  obtain ⟨pos, hdrv, rxcrc, rem⟩ := h
  have header : ¬s.fcnt < 3#3 → s.pos + 1#32 = s.cstart + 8#32 := fun last =>
    (pos_last hm (.inr (.inl hp)) legal pos last).trans (BitVec.add_assoc ..)
  simp only [tagPush_eq]
  split_ifs with more valid empty
  · exact progressInv_of_phase hm hp ⟨pos_more pos more, hdrv, rxcrc, rem⟩ fun _ => run
  · exact progressInv_of_phase hm rfl ⟨by simp [header more, empty], rfl, empty⟩ fun _ => run
  · exact progressInv_of_phase hm rfl ⟨congrArg (· + s.len) (header more), rfl, rxcrc⟩ fun _ => run
  · exact progressInv_of_error rfl ⟨fun _ => .inr ⟨hp, rfl, hdrv, header more⟩, nofun, nofun, nofun, nofun, nofun⟩

/-- POS counts up as REM counts down, so their sum stays (R216). -/
theorem dataPush_progressInv (hp : s.phase = .data) (h : PhaseProgress s .data) :
    ProgressInv (dataPush b { s with pos := s.pos + 1#32 }) := by
  obtain ⟨sum, hdrv, rxcrc⟩ := h
  have sum : s.pos + 1#32 + (s.rem - 1#32) = s.cstart + 8#32 + s.len := by rw [← sum]; bv_omega
  simp only [dataPush_eq]
  split_ifs with last
  · have fcnt : s.fcnt = 0#3 := by
      rw [hp, statusLegal_data _ (hm.imp_right .inl)] at legal
      exact of_decide_eq_true legal
    exact progressInv_of_phase hm rfl ⟨by simpa [fcnt, last] using sum, hdrv, last⟩ fun _ => run
  · exact progressInv_of_phase hm hp ⟨sum, hdrv, rxcrc⟩ fun _ => run

/-- The fourth checksum byte ends the chunk at CSTART + 12 + LEN, with success or with the error (R219 to R222). -/
theorem checksumPush_progressInv (hp : s.phase = .crc) (h : PhaseProgress s .crc) :
    ProgressInv (checksumPush b { s with pos := s.pos + 1#32 }) := by
  obtain ⟨pos, hdrv, rem⟩ := h
  have whole : ¬s.fcnt < 3#3 → s.pos + 1#32 = s.cstart + 12#32 + s.len := fun last => by
    rw [pos_last hm (.inr (.inr hp)) legal pos last]
    bv_omega
  simp only [checksumPush_eq]
  split_ifs with more ok chunk
  · exact progressInv_of_phase hm hp ⟨pos_more pos more, hdrv, rem⟩ fun _ => run
  · exact progressInv_of_quiet (.inr (.inr rfl))
  · exact progressInv_of_phase hm rfl ⟨rem, by simp [hdrv], fun _ => ⟨whole more, ok⟩⟩
      fun _ => ⟨fun hc => absurd hc chunk, run.2⟩
  · exact progressInv_of_error rfl ⟨nofun, nofun, fun _ => ⟨hp, rfl, whole more⟩, nofun, nofun, nofun⟩

end

/-- A byte at BOUND is the first length byte of a chunk that starts at POS (R213); in STREAM mode only (R212). -/
theorem deframePush_bound_progressInv {s : State} (b : Byte) (hm : s.mode = .stream) (hp : s.phase = .bound)
    (run : RunProgress s) : ProgressInv (deframePush b s) := by
  have legal : statusLegal (chunkBegin s.pos s).mode .len 0#3 = true := by simp [hm, statusLegal]
  have begun : RunProgress (chunkBegin s.pos s) := ⟨by simp [hm], run.2⟩
  rw [deframePush_bound b hp]
  exact lenPush_progressInv (s := chunkBegin s.pos s) b (.inr hm) legal begun rfl
    ⟨by simp, rfl, rfl, rfl, rfl, rfl⟩

theorem deframePush_progressInv {s : State} (b : Byte) (hm : s.mode = .chunk ∨ s.mode = .stream)
    (legal : statusLegal s.mode s.phase s.fcnt = true) (h : DeframeProgress s) : ProgressInv (deframePush b s) := by
  obtain ⟨phase, run⟩ := deframeProgress_iff.1 h
  have stream : s.phase = .sig ∨ s.phase = .bound → s.mode = .stream := fun hp => stream_of_statusLegal hm hp legal
  cases hp : s.phase with rw [hp] at phase run
  | none => rcases hm with hm | hm <;> simp [hm, hp, statusLegal] at legal
  | sig => rw [deframePush_sig b hp]; exact sigPush_progressInv b (stream (.inl hp)) hp phase
  | len => rw [deframePush_len b hp]; exact lenPush_progressInv b hm legal (run nofun) hp phase.1
  | tag => rw [deframePush_tag b hp]; exact tagPush_progressInv b hm legal (run nofun) hp phase
  | data => rw [deframePush_data b hp]; exact dataPush_progressInv b hm legal (run nofun) hp phase
  | crc => rw [deframePush_crc b hp]; exact checksumPush_progressInv b hm legal (run nofun) hp phase
  | bound => exact deframePush_bound_progressInv b (stream (.inr hp)) hp (run nofun)

/-! ### A byte -/

/-- The framer counts POS with LEN, and LengthOverflow comes where LEN is at its end (R182, R307). -/
theorem framePush_progressInv {s : State} (b : Byte) (hm : s.mode = .frame) (h : ProgressInv s) :
    ProgressInv (framePush b s) := by
  obtain ⟨-, frame, -⟩ := h
  obtain ⟨pos, valid, hdrv⟩ := frame hm
  unfold framePush
  split_ifs with full
  · exact progressInv_of_error rfl ⟨nofun, nofun, nofun, nofun, nofun, fun _ => ⟨full, pos.trans full⟩⟩
  · exact ⟨by simp [hm], fun _ => ⟨congrArg (· + 1#32) pos, valid, hdrv⟩, by simp [hm]⟩

theorem push_progressInv {s : State} (b : Byte) (hs : StatusInv s) (h : ProgressInv s) : ProgressInv (push b s) := by
  rcases push_cases b s with ⟨-, e⟩ | ⟨hm, e⟩ | ⟨hm, e⟩ | ⟨hm, e⟩ <;> rw [e]
  · exact h
  · exact progressInv_of_quiet (.inr (.inl hm))
  · exact framePush_progressInv b hm h
  · exact deframePush_progressInv b hm hs.1 (h.1 hm)

theorem pushAll_progressInv (bs : List Byte) {s : State} (hs : StatusInv s) (h : ProgressInv s) :
    ProgressInv (pushAll bs s) :=
  (pushAll_keeps (P := fun t => StatusInv t ∧ ProgressInv t)
    (fun b _ ht => ⟨push_statusInv b ht.1, push_progressInv b ht.1 ht.2⟩) bs ⟨hs, h⟩).2

/-! ### The commands -/

theorem frameStart_progressInv (s : State) : ProgressInv (frameStart s) := by
  unfold frameStart
  split_ifs with valid
  · exact ⟨by simp, fun _ => ⟨rfl, valid, rfl⟩, nofun⟩
  · exact progressInv_of_error rfl ⟨fun _ => .inl ⟨rfl, rfl, rfl⟩, nofun, nofun, nofun, nofun, nofun⟩

theorem chunkStart_progressInv (s : State) : ProgressInv (chunkStart s) :=
  progressInv_of_phase (.inl rfl) (p := .len) rfl ⟨⟨rfl, rfl, rfl, rfl, rfl, rfl⟩, nofun⟩
    fun _ => ⟨fun _ => ⟨rfl, rfl⟩, nofun⟩

theorem streamStart_progressInv (s : State) : ProgressInv (streamStart s) :=
  progressInv_of_phase (.inr rfl) (p := .sig) rfl ⟨rfl, rfl, rfl, rfl, rfl⟩ (absurd rfl)

/-- END that cuts a chunk short leaves the phase and the offset of the moment (R302). -/
theorem unexpectedEof_progressInv {s : State} (hp : s.phase = .len ∨ s.phase = .tag ∨ s.phase = .data ∨ s.phase = .crc)
    (phase : PhaseProgress s s.phase) : ProgressInv (fail .unexpectedEof s) := by
  refine progressInv_of_error rfl ⟨nofun, fun _ => ?_, nofun, nofun, nofun, nofun⟩
  rcases hp with hp | hp | hp | hp <;> rw [hp] at phase
  · exact .inl hp
  · exact .inr (.inl hp)
  · exact .inr (.inr (.inl ⟨hp, phase.1⟩))
  · exact .inr (.inr (.inr ⟨hp, phase.1⟩))

/-- A header that END cuts short has one to seven bytes (R306). -/
theorem trailingBytes_progressInv {s : State} (hm : s.mode = .stream)
    (legal : statusLegal s.mode s.phase s.fcnt = true) (hp : s.phase = .len ∨ s.phase = .tag)
    (phase : PhaseProgress s s.phase) : ProgressInv (fail .trailingBytes s) := by
  rw [statusLegal_field _ (.inr (.inl hm)) (hp.imp_right .inl), decide_eq_true_eq] at legal
  refine progressInv_of_error rfl ⟨nofun, nofun, nofun, nofun, fun _ => ⟨hp, ?_⟩, nofun⟩
  rcases hp with hp | hp <;> rw [hp] at phase
  · obtain ⟨⟨pos, -⟩, begun⟩ := phase
    have begun := begun hm
    simp only [fail_pos, fail_cstart]
    constructor <;> bv_omega
  · obtain ⟨pos, -⟩ := phase
    simp only [fail_pos, fail_cstart]
    constructor <;> bv_omega

theorem badSignature_progressInv {s : State} (hp : s.phase = .sig) (phase : PhaseProgress s .sig) :
    ProgressInv (fail .badSignature s) := by
  obtain ⟨pos, cstart, chunks, -⟩ := phase
  exact progressInv_of_error rfl ⟨nofun, nofun, nofun, fun _ => ⟨hp, cstart, chunks, .inr pos⟩, nofun, nofun⟩

theorem streamEnd_progressInv {s : State} (hm : s.mode = .stream) (legal : statusLegal s.mode s.phase s.fcnt = true)
    (h : DeframeProgress s) : ProgressInv (streamEnd s) := by
  obtain ⟨phase, -⟩ := deframeProgress_iff.1 h
  unfold streamEnd
  cases hp : s.phase with
  | none => simp [hm, hp, statusLegal] at legal
  | sig => exact badSignature_progressInv hp (hp ▸ phase)
  | bound => exact progressInv_of_quiet (.inr (.inr rfl))
  | len => exact trailingBytes_progressInv hm legal (.inl hp) phase
  | tag => exact trailingBytes_progressInv hm legal (.inr hp) phase
  | data => exact unexpectedEof_progressInv (.inr (.inr (.inl hp))) phase
  | crc => exact unexpectedEof_progressInv (.inr (.inr (.inr hp))) phase

theorem chunkEnd_progressInv {s : State} (hm : s.mode = .chunk) (legal : statusLegal s.mode s.phase s.fcnt = true)
    (h : DeframeProgress s) : ProgressInv (chunkEnd s) := by
  have inside : s.phase = .len ∨ s.phase = .tag ∨ s.phase = .data ∨ s.phase = .crc := by
    rw [hm] at legal
    cases hp : s.phase <;> simp_all [statusLegal]
  exact unexpectedEof_progressInv inside (deframeProgress_iff.1 h).1

theorem endInput_progressInv {s : State} (hs : StatusInv s) (h : ProgressInv s) : ProgressInv (endInput s) := by
  obtain ⟨legal, -⟩ := hs
  have ⟨deframing, _⟩ := h
  unfold endInput
  cases hm : s.mode with
  | idle | done | error => exact h
  | crc | frame => exact progressInv_of_quiet (.inr (.inr rfl))
  | chunk => exact chunkEnd_progressInv hm legal (deframing (.inl hm))
  | stream => exact streamEnd_progressInv hm legal (deframing (.inr hm))

/-! ### The host writes -/

/-- CRC_STATE and TAG are writable where neither framer nor deframer runs: only the record of an error is to be kept. -/
theorem progressInv_of_hostWritable {s : State} (guard : hostWritable s.mode = true)
    (h : s.mode = .error → ErrorRecord s) : ProgressInv s := by
  refine ⟨fun hm => ?_, fun hm => ?_, h⟩
  · rcases hm with hm | hm <;> rw [hm] at guard <;> cases guard
  · rw [hm] at guard
    cases guard

/-- A write to TAG clears HDRV, as the record of a tag error has it (R186, R301). -/
theorem tag_errorRecord {s : State} (v : Word) (h : ErrorRecord s) : ErrorRecord { s with tag := v, hdrv := false } := by
  obtain ⟨tagError, others⟩ := h
  exact ⟨fun err => (tagError err).imp_right fun ⟨hp, hf, _, pos⟩ => ⟨hp, hf, rfl, pos⟩, others⟩

/-! ### Every transaction, every step -/

theorem Transacts.progressInv {i : Instr} {s t : State} (ht : Transacts i s t) (hs : StatusInv s) (h : ProgressInv s) :
    ProgressInv t := by
  have ⟨_, _, error⟩ := h
  cases ht with
  | ignored | read | nop | clrIgn | tagchk => exact h
  | abort => exact progressInv_of_quiet (.inl rfl)
  | crcStart => exact progressInv_of_quiet (.inr (.inl rfl))
  | frameStart => exact frameStart_progressInv s
  | chunkStart => exact chunkStart_progressInv s
  | streamStart => exact streamStart_progressInv s
  | endInput => exact endInput_progressInv hs h
  | crcState guard => exact progressInv_of_hostWritable guard error
  | tag guard => exact progressInv_of_hostWritable guard fun hm => tag_errorRecord _ (error hm)
  | input => exact pushAll_progressInv _ hs h

/-- Settles O44: an idle bus and a wait state change no field ProgressInv speaks of, after a reset no function runs, and
every transaction keeps the invariant (`Transacts.progressInv`). -/
theorem stepKeepsProgressInv : Obligations.StepKeepsProgressInv := by
  intro s t hs h hstep
  rcases step_cases hstep with ⟨-, rfl⟩ | ⟨rest, -, rfl⟩ | ⟨rest, -, rfl⟩ | ⟨x, rest, -, ht⟩
  · exact h
  · exact h
  · exact progressInv_of_quiet (.inl rfl)
  · exact ht.progressInv hs h

end Sys2Proof.Machine
end

section
/-! The framer: FRAME_START judges the tag (43_framer.md R181), and a payload framed as R189 does it obeys R190. -/

namespace Sys2Proof.Machine

/-! ### FRAME_START -/

theorem frameStart_valid {s : State} (h : validTag s.tag = true) :
    frameStart s = { frameClear s with crcState := crcUpdate crcInit (be32 s.tag), mode := .frame } := by
  rw [frameStart, if_pos h]

/-- Settles O18: FRAME_START is command 2, and `frameStart` runs under `whenStartable`. -/
theorem frameStartJudgesTheTag : Obligations.FrameStartJudgesTheTag := by
  intro s g
  exact ⟨decode_command 0x2#4 g, congrArg Host.Outcome.next (whenStartable_by_mode frameStart s)⟩

/-! ### The framing sequence of R189 -/

theorem hostWritable_of_startable {m : Mode} (h : startable m = true) : hostWritable m = true := by
  cases m <;> first | rfl | cases h

/-- `wr TAG` in a startable mode (R186). -/
theorem issue_wrTag {s : State} (hs : Startable s) (t : Word) (rest : List Txn) :
    issue (asmWr (.reg .tag) t :: rest) s = issue rest { s with tag := t, hdrv := false } :=
  issue_cons_of_next rest <| (exec_asmWr_tag t s).trans <|
    congrArg Host.Outcome.next (whenHostWritable_writable _ (hostWritable_of_startable hs))

/-- `cmd FRAME_START` with a valid tag (R181). -/
theorem issue_frameStart {s : State} (hs : Startable s) (ht : validTag s.tag = true) (rest : List Txn) :
    issue (asmCmd .frameStart :: rest) s
      = issue rest { frameClear s with crcState := crcUpdate crcInit (be32 s.tag), mode := .frame } :=
  issue_cons_of_next rest <| (exec_asmCmd .frameStart s).trans <|
    congrArg Host.Outcome.next ((whenStartable_startable frameStart hs).trans (frameStart_valid ht))

/-- `pushb` and `cmd END` in FRAME mode, for a payload that LEN can count (R182, R184). -/
theorem issue_payload_end {s : State} {d : List Byte} (hm : s.mode = .frame) (len : s.len = 0#32) (pos : s.pos = 0#32)
    (hd : d.length < 2 ^ 32) :
    issue (asmPushb d ++ [asmCmd .endInput]) s
      = some { s with
          mode := .done, crcState := crcUpdate s.crcState d, len := BitVec.ofNat 32 d.length,
          pos := BitVec.ofNat 32 d.length } := by
  rw [issue_append, pushbDeliversEveryByte, pushAll_frame d hm (by simpa [len] using hd) (pos.trans len.symm)]
  refine (issue_cons_of_next [] (exec_asmCmd .endInput _)).trans (congrArg some ?_)
  simp [endInput, hm, frameEnd, len, pos]

/-- Settles O48: the tag's bytes seed the checksum, the payload's bytes continue it, and no transaction is ignored. -/
theorem framerLaws : Obligations.FramerLaws := by
  intro s t d hs ht hd
  rw [issue_wrTag hs, issue_frameStart (s := { s with tag := t, hdrv := false }) hs ht]
  refine ⟨_, issue_payload_end rfl rfl rfl hd, rfl, rfl, ?len, rfl, ?crc, rfl⟩
  case len => exact Nat.mod_eq_of_lt hd
  case crc =>
    show crcFinish (crcUpdate (crcUpdate crcInit (be32 t)) d) = crc32 (be32 t ++ d)
    rw [crc32, crcUpdate_append]

end Sys2Proof.Machine
end

section
/-! The deframer's commands and bytes as instructions: CHUNK_START and STREAM_START by mode (44_deframer.md R201, R202), a byte
in each phase (R211 to R222), and what the model does in the states no run reaches (R47). -/

namespace Sys2Proof.Machine

/-- Settles O19: the two starts are commands 3 and 4, and both run under `whenStartable`. -/
theorem deframeStartsClearTheChunk : Obligations.DeframeStartsClearTheChunk := by
  intro s g
  exact ⟨decode_command 0x3#4 g, congrArg Host.Outcome.next (whenStartable_by_mode chunkStart s),
    decode_command 0x4#4 g, congrArg Host.Outcome.next (whenStartable_by_mode streamStart s)⟩

/-! ### WR_DIN8 and WR_DIN32 in a deframing function -/

theorem exec_wrDin8_deframe {s : State} (hm : s.mode = .chunk ∨ s.mode = .stream) (b : Byte) (g : BitVec 24) :
    exec (.wrDin8 b g) s = .next (deframePush b s) := congrArg Host.Outcome.next (push_deframe b hm)

theorem exec_wrDin32 (a b c d : Byte) (s : State) : exec (.wrDin32 a b c d) s = .next (pushAll [a, b, c, d] s) := rfl

/-! ### The SIG phase (R211) -/

/-- Settles O22: `sigPush_eq`; a verdict of match is reached with SIGMATCH still set. -/
theorem bytesInTheSigPhase : Obligations.BytesInTheSigPhase := by
  intro s b g hm hp expected matched
  rw [exec_wrDin8_deframe (.inr hm), deframePush_sig b hp, sigPush_eq]
  have verdict : matched = true ↔ s.sigmatch = true ∧ b = signatureByte s.fcnt := by
    rw [Bool.and_eq_true, decide_eq_true_eq]; rfl
  by_cases more : s.fcnt < 7#3
  · simp only [more, if_true]; rfl
  by_cases ok : matched = true
  · rw [if_neg more, if_neg more, if_pos (verdict.1 ok), if_pos ok, ok, (verdict.1 ok).1]
  · rw [if_neg more, if_neg more, if_neg (mt verdict.2 ok), if_neg ok]; rfl

/-! ### BOUND and the LEN phase (R213, R214) -/

theorem shiftIn_zero (b : Byte) : shiftIn 0#32 b = b.setWidth 32 := by simp [shiftIn]

/-- Settles O23: `deframePush_bound` and `lenPush_eq` for a byte, `pushAll_length` for the whole field. -/
theorem bytesAtBoundAndInTheLenPhase : Obligations.BytesAtBoundAndInTheLenPhase := by
  intro s b g hm
  refine ⟨fun _ hp => ?bound, fun hp => ?byte, fun hp hf l0 l1 l2 l3 => ?field⟩
  case bound =>
    rw [exec_wrDin8_deframe hm, deframePush_bound b hp, ← shiftIn_zero]
    rfl
  case byte => rw [exec_wrDin8_deframe hm, deframePush_len b hp, lenPush_eq]; rfl
  case field =>
    refine ⟨_, exec_wrDin32 l0 l1 l2 l3 s, ?_⟩
    rw [pushAll_length l0 l1 l2 l3 hm hp hf]
    exact ⟨rfl, rfl, rfl⟩

/-! ### The TAG phase (R215, R217) -/

/-- Settles O24: `tagPush_eq` for a byte, `pushAll_tag` for the whole field; HDRV by StatusInv. -/
theorem bytesInTheTagPhase : Obligations.BytesInTheTagPhase := by
  intro s b g hm hp tag' taken
  refine ⟨?byte, fun inv => ?hdrv, fun hf t0 t1 t2 t3 => ?field⟩
  case byte => rw [exec_wrDin8_deframe hm, deframePush_tag b hp, tagPush_eq]; rfl
  case hdrv => exact Bool.eq_false_iff.2 (inv.hdrv_ne_true (.inr (.inr hp)))
  case field =>
    refine ⟨_, exec_wrDin32 t0 t1 t2 t3 s, ?_⟩
    rw [pushAll_tag t0 t1 t2 t3 hm hp hf]
    split <;> rfl

/-! ### The DATA phase (R216) -/

/-- Settles O25: `dataPush_eq`. -/
theorem bytesInTheDataPhase : Obligations.BytesInTheDataPhase := by
  intro s b g hm hp _
  rw [exec_wrDin8_deframe hm, deframePush_data b hp, dataPush_eq, ← hp]

/-! ### The CRC phase (R218 to R222) -/

/-- Settles O26: `checksumPush_eq` for a byte, `pushAll_checksum` for the whole field; HDRV by ProgressInv. -/
theorem bytesInTheCrcPhase : Obligations.BytesInTheCrcPhase := by
  intro s b g hm hp rxcrc' taken
  refine ⟨?byte, fun inv => ?hdrv, fun hf x0 x1 x2 x3 => ?field⟩
  case byte =>
    have mode : (if s.mode = .chunk then Mode.done else s.mode) = if s.mode = .chunk then .done else .stream := by
      rcases hm with hm | hm <;> simp [hm]
    rw [exec_wrDin8_deframe hm, deframePush_crc b hp, checksumPush_eq, ← mode]
    rfl
  case hdrv =>
    obtain ⟨deframing, -⟩ := inv
    obtain ⟨phase, -⟩ := deframeProgress_iff.1 (deframing hm)
    rw [hp] at phase
    exact phase.2.1
  case field =>
    refine ⟨_, exec_wrDin32 x0 x1 x2 x3 s, ?_⟩
    rw [pushAll_checksum x0 x1 x2 x3 hm hp hf]
    split <;> rfl

/-! ### States no run reaches (R47) -/

/-- At SIG and at BOUND a byte looks at no mode: it leaves it, or raises an error (R211, R213). -/
theorem deframePush_with_mode {s : State} (b : Byte) (hp : s.phase = .sig ∨ s.phase = .bound) (m : Mode)
    (hs : s.mode ≠ .error) :
    deframePush b { s with mode := m } =
      { deframePush b s with mode := if (deframePush b s).mode = .error then .error else m } := by
  rcases hp with hp | hp
  · rw [deframePush_sig b hp, deframePush_sig b (s := { s with mode := m }) hp]
    simp only [sigPush_eq]
    by_cases more : s.fcnt < 7#3
    · simp only [more, if_true, hs, if_false]
    by_cases ok : s.sigmatch = true ∧ b = signatureByte s.fcnt
    · simp only [more, ok, and_self, if_true, if_false, hs]
    · simp only [more, ok, if_true, if_false]
  · rw [deframePush_bound b hp, deframePush_bound b (s := { s with mode := m }) hp]
    simp [lenPush_eq, chunkBegin, hs]

/-- Settles O28: the pseudocode of each phase, applied where no run leads. -/
theorem unreachedStatesFollowThePseudocode : Obligations.UnreachedStatesFollowThePseudocode := by
  intro s b g g'
  refine ⟨fun hp hm => ?none, fun hp hm => ?endNone, fun hp hr hm => ?data, fun hm pos len => ?frame,
    fun hm hp => ?chunk⟩
  case none => rw [exec_wrDin8_deframe hm, deframePush_none b hp]
  case endNone =>
    show Host.Outcome.next (endInput s) = _
    simp [endInput, hm, streamEnd, hp]
  case data =>
    rw [exec_wrDin8_deframe hm, deframePush_data b hp, dataPush_eq]
    simp only [hr]
    rfl
  case frame =>
    show Host.Outcome.next (push b s) = _
    rw [push_frame b hm, framePush, if_neg len, pos]
    rfl
  case chunk =>
    refine ⟨_, exec_wrDin8_deframe (s := { s with mode := .stream }) (.inr rfl) b g, ?_⟩
    rw [exec_wrDin8_deframe (.inl hm)]
    have := deframePush_with_mode (s := { s with mode := .stream }) b hp .chunk nofun
    rw [← this, ← hm]

end Sys2Proof.Machine
end

section
/-! Whole chunks through the deframer, in both modes: the header, the payload and the checksum as one update, and where input
that ends inside a chunk leaves the block (44_deframer.md R210 to R222). -/

namespace Sys2Proof.Machine

/-! ### The word at the front of a byte sequence (R51) -/

theorem takeWord_be32 (v : Word) (rest : List Byte) : takeWord (be32 v ++ rest) = some (v, rest) := by
  simp [be32, takeWord]

theorem takeWord_short {bs : List Byte} (h : bs.length < 4) : takeWord bs = none := by
  unfold takeWord
  split
  · simp only [List.length_cons] at h
    omega
  · rfl

theorem short_or_be32 (bs : List Byte) : bs.length < 4 ∨ ∃ v rest, bs = be32 v ++ rest := by
  rcases bs with _ | ⟨b0, _ | ⟨b1, _ | ⟨b2, _ | ⟨b3, bs⟩⟩⟩⟩
  case cons.cons.cons.cons => exact .inr ⟨ofWire b0 b1 b2 b3, bs, by rw [be32_ofWire]; rfl⟩
  all_goals exact .inl (by simp)

/-! ### Input that ends inside a field -/

/-- The bytes of a field that FCNT counts (R203); DATA is counted by REM. -/
def Phase.fieldBytes : Phase → Nat
  | .sig => 8
  | .len | .tag | .crc => 4
  | .none | .data | .bound => 0

/-- What a byte inside a field or a payload leaves as it is: the function, its phase, the error and the chunk count and
start. -/
def State.place (s : State) : Mode × Phase × Option ErrKind × Word × Word := (s.mode, s.phase, s.err, s.chunks, s.cstart)

theorem place_eq_iff {s t : State} : s.place = t.place ↔
    s.mode = t.mode ∧ s.phase = t.phase ∧ s.err = t.err ∧ s.chunks = t.chunks ∧ s.cstart = t.cstart := by
  simp only [State.place, Prod.mk.injEq]

/-- FCNT counts on before the last byte of a field. -/
theorem fcnt_counts {f last : BitVec 3} (more : f.toNat + 1 < last.toNat + 1) :
    f < last ∧ (f + 1#3).toNat = f.toNat + 1 := by
  constructor <;> bv_omega

theorem deframePush_inside_field {s : State} (b : Byte) (more : s.fcnt.toNat + 1 < s.phase.fieldBytes) :
    (deframePush b s).place = s.place ∧ (deframePush b s).fcnt.toNat = s.fcnt.toNat + 1 := by
  cases hp : s.phase with rw [hp] at more
  | none | data | bound => exact absurd more (Nat.not_lt_zero _)
  | sig =>
    obtain ⟨lt, next⟩ := fcnt_counts (last := 7#3) more
    rw [deframePush_sig b hp, sigPush_eq, if_pos lt]
    exact ⟨rfl, next⟩
  | len =>
    obtain ⟨lt, next⟩ := fcnt_counts (last := 3#3) more
    rw [deframePush_len b hp, lenPush_eq, if_pos lt]
    exact ⟨rfl, next⟩
  | tag =>
    obtain ⟨lt, next⟩ := fcnt_counts (last := 3#3) more
    rw [deframePush_tag b hp, tagPush_eq, if_pos lt]
    exact ⟨rfl, next⟩
  | crc =>
    obtain ⟨lt, next⟩ := fcnt_counts (last := 3#3) more
    rw [deframePush_crc b hp, checksumPush_eq, if_pos lt]
    exact ⟨rfl, next⟩

theorem pushAll_inside_field (bs : List Byte) : ∀ {s : State}, s.mode = .chunk ∨ s.mode = .stream →
    s.fcnt.toNat + bs.length < s.phase.fieldBytes → (pushAll bs s).place = s.place := by
  induction bs with
  | nil => exact fun _ _ => rfl
  | cons b bs ih =>
    intro s hm more
    rw [List.length_cons] at more
    obtain ⟨place, fcnt⟩ := deframePush_inside_field b (s := s) (by omega)
    obtain ⟨mode, phase, -⟩ := place_eq_iff.1 place
    rw [pushAll_cons, push_deframe b hm, ih (by rwa [mode]) (by rw [phase, fcnt]; omega), place]

/-! ### The two verdicts, and the fields before them -/

theorem tagJudge_valid {s : State} (h : validTag s.tag = true) :
    tagJudge s = { s with hdrv := true, rem := s.len, phase := if s.len = 0#32 then .crc else .data } := if_pos h

theorem tagJudge_invalid {s : State} (h : validTag s.tag = false) : tagJudge s = fail .invalidTagBytes s :=
  if_neg (by rw [h]; nofun)

theorem crcJudge_match_chunk {s : State} (hm : s.mode = .chunk) (h : s.rxcrc = crcFinish s.crcState) :
    crcJudge s = { s with chunks := s.chunks + 1#32, phase := .bound, mode := .done } := by
  rw [crcJudge, if_pos h, if_pos hm]

theorem crcJudge_match_stream {s : State} (hm : s.mode = .stream) (h : s.rxcrc = crcFinish s.crcState) :
    crcJudge s = { s with chunks := s.chunks + 1#32, phase := .bound } := by
  rw [crcJudge, if_pos h, if_neg (by rw [hm]; nofun)]

theorem crcJudge_mismatch {s : State} (h : s.rxcrc ≠ crcFinish s.crcState) : crcJudge s = fail .checksumMismatch s :=
  if_neg h

section
variable {s : State} (hm : s.mode = .chunk ∨ s.mode = .stream) (hf : s.fcnt = 0#3)
include hm hf

theorem pushAll_be32_length (hp : s.phase = .len) (l : Word) :
    pushAll (be32 l) s = { s with pos := s.pos + 4#32, len := l, phase := .tag } := by
  rw [be32, pushAll_length _ _ _ _ hm hp hf, ofWire_wireByte, ← hf]

theorem pushAll_be32_tag (hp : s.phase = .tag) (t : Word) :
    pushAll (be32 t) s =
      tagJudge { s with pos := s.pos + 4#32, tag := t, crcState := crcUpdate s.crcState (be32 t) } := by
  rw [be32, pushAll_tag _ _ _ _ hm hp hf, ofWire_wireByte, ← hf]
  rfl

theorem pushAll_be32_checksum (hp : s.phase = .crc) (x : Word) :
    pushAll (be32 x) s = crcJudge { s with pos := s.pos + 4#32, rxcrc := x } := by
  rw [be32, pushAll_checksum _ _ _ _ hm hp hf, ofWire_wireByte, ← hf]
  rfl

/-! ### A chunk, from the start of its length field -/

/-- The block behind a header of length `l` and tag `t`, but for the verdict on the tag (R215). -/
def State.withHeader (s : State) (l t : Word) : State :=
  { s with pos := s.pos + 8#32, len := l, tag := t, crcState := crcUpdate s.crcState (be32 t) }

variable (hp : s.phase = .len)
include hp

theorem pushAll_header (l t : Word) :
    pushAll (be32 l ++ be32 t) s = tagJudge { s.withHeader l t with phase := .tag } := by
  rw [pushAll_append, pushAll_be32_length hm hf hp,
    pushAll_be32_tag (s := { s with pos := s.pos + 4#32, len := l, phase := .tag }) hm hf rfl, BitVec.add_assoc]
  rfl

/-- Where LEN = 0 the checksum follows the header (R217). -/
theorem pushAll_header_valid {t : Word} (ht : validTag t = true) (l : Word) :
    pushAll (be32 l ++ be32 t) s =
      { s.withHeader l t with hdrv := true, rem := l, phase := if l = 0#32 then .crc else .data } := by
  rw [pushAll_header hm hf hp]
  exact tagJudge_valid ht

theorem pushAll_header_invalid {t : Word} (ht : validTag t = false) (l : Word) :
    pushAll (be32 l ++ be32 t) s = fail .invalidTagBytes { s.withHeader l t with phase := .tag } := by
  rw [pushAll_header hm hf hp]
  exact tagJudge_invalid ht

/-- The whole payload leads to the checksum, the empty one too (R216, R217). -/
theorem pushAll_header_payload {t : Word} (ht : validTag t = true) {l : Word} {d : List Byte} (hd : d.length = l.toNat) :
    pushAll (be32 l ++ be32 t ++ d) s =
      { s.withHeader l t with
        hdrv := true, rem := 0#32, phase := .crc, pos := s.pos + 8#32 + l,
        crcState := crcUpdate s.crcState (be32 t ++ d) } := by
  rw [pushAll_append, pushAll_header_valid hm hf hp ht]
  by_cases empty : l = 0#32
  · subst empty
    obtain rfl : d = [] := List.eq_nil_of_length_eq_zero hd
    simp [State.withHeader]
  · rw [if_neg empty, pushAll_data d (s := { s.withHeader l t with hdrv := true, rem := l, phase := .data }) hm rfl empty
      hd.le, crcUpdate_append]
    simp [State.withHeader, hd]

/-- A payload cut short stays in DATA, and before the end of the checksum in CRC (R216, R218). -/
theorem pushAll_header_cut {t : Word} (ht : validTag t = true) {l : Word} {body : List Byte}
    (short : body.length < l.toNat + 4) :
    ∃ p, (p = .data ∨ p = .crc)
      ∧ (pushAll (be32 l ++ be32 t ++ body) s).place = (s.mode, p, s.err, s.chunks, s.cstart) := by
  by_cases payload : body.length < l.toNat
  · have some : l ≠ 0#32 := by rintro rfl; exact absurd payload (Nat.not_lt_zero _)
    refine ⟨.data, .inl rfl, ?_⟩
    rw [pushAll_append, pushAll_header_valid hm hf hp ht, if_neg some,
      pushAll_data body (s := { s.withHeader l t with hdrv := true, rem := l, phase := .data }) hm rfl some payload.le,
      if_neg payload.ne]
    rfl
  · refine ⟨.crc, .inr rfl, ?_⟩
    have taken : (body.take l.toNat).length = l.toNat := by rw [List.length_take]; omega
    rw [← List.take_append_drop l.toNat body, ← List.append_assoc, pushAll_append,
      pushAll_header_payload hm hf hp ht taken, pushAll_inside_field]
    · rfl
    · exact hm
    · show s.fcnt.toNat + (body.drop l.toNat).length < 4
      rw [hf, List.length_drop]
      show 0 + (body.length - l.toNat) < 4
      omega

/-- Fewer bytes than a header stay in the header (R214, R215). -/
theorem pushAll_inside_header {bs : List Byte} (short : bs.length < 8) :
    ∃ p, (p = .len ∨ p = .tag) ∧ (pushAll bs s).place = (s.mode, p, s.err, s.chunks, s.cstart) := by
  obtain inLength | ⟨l, rest, rfl⟩ := short_or_be32 bs
  · refine ⟨.len, .inl rfl, ?_⟩
    rw [pushAll_inside_field bs hm (by rw [hf, hp]; simpa [Phase.fieldBytes] using inLength), State.place, hp]
  · refine ⟨.tag, .inr rfl, ?_⟩
    rw [List.length_append, be32_length] at short
    rw [pushAll_append, pushAll_be32_length hm hf hp, pushAll_inside_field]
    · rfl
    · exact hm
    · show s.fcnt.toNat + rest.length < 4
      rw [hf]
      show 0 + rest.length < 4
      omega

/-- The block behind a whole chunk, but for the verdict on the checksum (R219). -/
def State.withChunk (s : State) (c : Record) : State :=
  { s.withHeader c.length c.tag with
    pos := s.pos + 12#32 + c.length, rxcrc := c.checksum, crcState := crcUpdate s.crcState (be32 c.tag ++ c.data),
    rem := 0#32, hdrv := true }

theorem pushAll_serialize {c : Record} (ht : validTag c.tag = true) (hd : c.data.length = c.length.toNat) :
    pushAll (serialize c) s = crcJudge { s.withChunk c with phase := .crc } := by
  have whole : s.pos + 8#32 + c.length + 4#32 = s.pos + 12#32 + c.length := by bv_omega
  rw [serialize, pushAll_append, pushAll_header_payload hm hf hp ht hd]
  refine (pushAll_be32_checksum (by exact hm) (by exact hf) (by rfl) c.checksum).trans ?_
  rw [whole]
  rfl

end

end Sys2Proof.Machine
end

section
/-! `Chunk::parse` and the framing of a stream against the deframer's two modes, and what they make of framed payloads
(44_deframer.md R238 to R240). -/

namespace Sys2Proof.Machine

/-! ### How a chunk parse ends (R238) -/

/-- The five ways a chunk parse ends, each with the form of its bytes: the input ends in the header, the tag is invalid, the
input ends behind the header, the checksum is wrong, or there is a record. -/
inductive ParseCase : List Byte → Except ErrKind (Record × List Byte) → Prop
  | headerCut {bytes : List Byte} (short : bytes.length < 8) : ParseCase bytes (.error .unexpectedEof)
  | badTag {l t : Word} {body : List Byte} (tag : validTag t = false) :
      ParseCase (be32 l ++ be32 t ++ body) (.error .invalidTagBytes)
  | bodyCut {l t : Word} {body : List Byte} (tag : validTag t = true) (short : body.length < l.toNat + 4) :
      ParseCase (be32 l ++ be32 t ++ body) (.error .unexpectedEof)
  | badChecksum {c : Record} {rest : List Byte} (tag : validTag c.tag = true) (length : c.data.length = c.length.toNat)
      (checksum : c.checksum ≠ crc32 (be32 c.tag ++ c.data)) :
      ParseCase (serialize c ++ rest) (.error .checksumMismatch)
  | ok {c : Record} {rest : List Byte} (valid : c.valid) : ParseCase (serialize c ++ rest) (.ok (c, rest))

/-- A parse behind a valid header: LEN bytes of payload and a checksum, if there are so many. -/
theorem parseChunk_body {l t : Word} (tag : validTag t = true) (body : List Byte) :
    ParseCase (be32 l ++ be32 t ++ body) (parseChunk (be32 l ++ be32 t ++ body)) := by
  obtain short | ⟨x, rest, whole⟩ := short_or_be32 (body.drop l.toNat)
  · have e : parseChunk (be32 l ++ be32 t ++ body) = .error .unexpectedEof := by
      simp only [parseChunk, List.append_assoc, takeWord_be32, tag, if_true, takeWord_short short]
    rw [List.length_drop] at short
    rw [e]
    exact .bodyCut tag (by omega)
  · have e : parseChunk (be32 l ++ be32 t ++ body) =
        if x = crc32 (be32 t ++ body.take l.toNat) then .ok (⟨l, t, body.take l.toNat, x⟩, rest)
        else .error .checksumMismatch := by
      simp only [parseChunk, List.append_assoc, takeWord_be32, tag, if_true, whole]
    have length : (body.take l.toNat).length = l.toNat := by
      have := congrArg List.length whole
      rw [List.length_drop, List.length_append, be32_length] at this
      rw [List.length_take]
      omega
    have bytes : be32 l ++ be32 t ++ body = serialize ⟨l, t, body.take l.toNat, x⟩ ++ rest := by
      rw [serialize, List.append_assoc _ (be32 x), ← whole, List.append_assoc _ (body.take _), List.take_append_drop]
    rw [e, bytes]
    split
    · exact .ok ⟨tag, length, ‹_›⟩
    · exact .badChecksum tag length ‹_›

theorem parseChunk_case (bytes : List Byte) : ParseCase bytes (parseChunk bytes) := by
  obtain short | ⟨l, afterLength, rfl⟩ := short_or_be32 bytes
  · have e : parseChunk bytes = .error .unexpectedEof := by simp only [parseChunk, takeWord_short short]
    rw [e]
    exact .headerCut (by omega)
  obtain short | ⟨t, body, rfl⟩ := short_or_be32 afterLength
  · have e : parseChunk (be32 l ++ afterLength) = .error .unexpectedEof := by
      simp only [parseChunk, takeWord_be32, takeWord_short short]
    rw [e]
    exact .headerCut (by rw [List.length_append, be32_length]; omega)
  rw [← List.append_assoc]
  cases tag : validTag t with
  | true => exact parseChunk_body tag body
  | false =>
    have e : parseChunk (be32 l ++ be32 t ++ body) = .error .invalidTagBytes := by
      simp [parseChunk, takeWord_be32, tag]
    rw [e]
    exact .badTag tag

/-! ### A frame is a serialized record (R185) -/

/-- The record of a payload, as the framer makes it (R185). -/
def frameRecord (t : Word) (d : List Byte) : Record := ⟨BitVec.ofNat 32 d.length, t, d, crc32 (be32 t ++ d)⟩

theorem serialize_frameRecord (t : Word) (d : List Byte) : serialize (frameRecord t d) = frame t d := rfl

theorem frameRecord_valid {t : Word} {d : List Byte} (ht : validTag t = true) (hd : d.length < 2 ^ 32) :
    (frameRecord t d).valid := ⟨ht, (Nat.mod_eq_of_lt hd).symm, rfl⟩

/-- A record's payload stands behind its header (R238). -/
theorem payload_of_serialize {c : Record} (length : c.data.length = c.length.toNat) (rest : List Byte) :
    ((serialize c ++ rest).drop 8).take c.length.toNat = c.data := by
  rw [serialize, List.append_assoc, List.append_assoc, List.drop_left' (by simp), List.take_left' length]

/-! ### The commands -/

theorem issue_chunkStart {s : State} (hs : Startable s) (rest : List Txn) :
    issue (asmCmd .chunkStart :: rest) s = issue rest (chunkStart s) :=
  issue_cons_of_next rest <| (exec_asmCmd .chunkStart s).trans <|
    congrArg Host.Outcome.next (whenStartable_startable chunkStart hs)

theorem issue_streamStart {s : State} (hs : Startable s) (rest : List Txn) :
    issue (asmCmd .streamStart :: rest) s = issue rest (streamStart s) :=
  issue_cons_of_next rest <| (exec_asmCmd .streamStart s).trans <|
    congrArg Host.Outcome.next (whenStartable_startable streamStart hs)

theorem issue_endInput (s : State) : issue [asmCmd .endInput] s = some (endInput s) :=
  issue_cons_of_next [] (exec_asmCmd .endInput s)

theorem issue_chunkStart_pushb {s : State} (hs : Startable s) (bytes : List Byte) :
    issue (asmCmd .chunkStart :: asmPushb bytes) s = some (pushAll bytes (chunkStart s)) := by
  rw [issue_chunkStart hs, pushbDeliversEveryByte]

theorem issue_streamStart_pushb_end {s : State} (hs : Startable s) (bytes : List Byte) :
    issue (asmCmd .streamStart :: (asmPushb bytes ++ [asmCmd .endInput])) s
      = some (endInput (pushAll bytes (streamStart s))) := by
  rw [issue_streamStart hs, issue_append, pushbDeliversEveryByte]
  exact issue_endInput _

/-! ### Behind the end of the function (R111) -/

/-- Bytes behind the end change IGN and its ghost mark at most. -/
theorem pushAll_ended {s : State} (h : startable s.mode = true) (bs : List Byte) :
    ∃ i g, pushAll bs s = { s with ign := i, ignSeen := g } := by
  rw [pushAll_startable bs h]
  split
  · exact ⟨s.ign, s.ignSeen, rfl⟩
  · exact ⟨true, true, rfl⟩

theorem endInput_pushAll_ended {s : State} (h : startable s.mode = true) (bs : List Byte) :
    endInput (pushAll bs s) = setIgn s := by
  obtain ⟨i, g, e⟩ := pushAll_ended h bs
  rw [e]
  exact endInput_startable h

/-! ### CHUNK mode (R238) -/

/-- A whole chunk with the right checksum ends CHUNK mode (R220). -/
theorem pushAll_chunkStart_serialize {c : Record} (s : State) (valid : c.valid) :
    pushAll (serialize c) (chunkStart s) =
      { (chunkStart s).withChunk c with chunks := 1#32, phase := .bound, mode := .done } := by
  obtain ⟨tag, length, checksum⟩ := valid
  rw [pushAll_serialize (.inl rfl) rfl rfl tag length]
  exact crcJudge_match_chunk rfl checksum

theorem pushAll_chunkStart_serialize_mismatch {c : Record} (s : State) (tag : validTag c.tag = true)
    (length : c.data.length = c.length.toNat) (checksum : c.checksum ≠ crc32 (be32 c.tag ++ c.data)) :
    pushAll (serialize c) (chunkStart s) =
      fail .checksumMismatch { (chunkStart s).withChunk c with phase := .crc } := by
  rw [pushAll_serialize (.inl rfl) rfl rfl tag length]
  exact crcJudge_mismatch checksum

/-- Settles O51: the frame is a valid record's, and no byte follows it. -/
theorem frameRoundTrip : Obligations.FrameRoundTrip := by
  intro s t d hs ht hd
  have valid := frameRecord_valid ht hd
  have ⟨_, length, _⟩ := valid
  have payload := payload_of_serialize length []
  rw [List.append_nil] at payload
  rw [← serialize_frameRecord]
  exact ⟨_, (issue_chunkStart_pushb hs _).trans (congrArg some (pushAll_chunkStart_serialize s valid)),
    rfl, rfl, rfl, length.symm, rfl, rfl, payload.symm⟩

/-- Settles O53: the stored checksum is that of other bytes, and one changed byte changes crc_update (R156). -/
theorem changedPayloadByteIsDetected : Obligations.ChangedPayloadByteIsDetected := by
  intro s t p q b b' hs ht hd differ
  have checksum : crc32 (be32 t ++ (p ++ b :: q)) ≠ crc32 (be32 t ++ (p ++ b' :: q)) := by
    intro same
    rw [← List.append_assoc, ← List.append_assoc] at same
    exact crcDetectsOneChangedByte crcInit (be32 t ++ p) q b b' differ ((BitVec.xor_left_inj _).1 same)
  have length : (p ++ b' :: q).length = (BitVec.ofNat 32 (p ++ b :: q).length).toNat := by
    rw [BitVec.toNat_ofNat, Nat.mod_eq_of_lt hd, List.length_append, List.length_append]
    rfl
  exact ⟨_, (issue_chunkStart_pushb hs _).trans (congrArg some
    (pushAll_chunkStart_serialize_mismatch (c := ⟨_, t, p ++ b' :: q, _⟩) s ht length checksum)), rfl, rfl⟩

/-- END in CHUNK mode, and nothing where the mode is no longer CHUNK (R238). -/
def endIfChunk (m : State) : State := if m.mode = .chunk then endInput m else m

theorem issue_endIfChunk (m : State) :
    if m.mode = .chunk then issue [asmCmd .endInput] m = some (endIfChunk m) else endIfChunk m = m := by
  unfold endIfChunk
  split
  · exact issue_endInput m
  · rfl

theorem endIfChunk_running {m : State} (hm : m.mode = .chunk) : endIfChunk m = fail .unexpectedEof m := by
  simp [endIfChunk, endInput, hm, chunkEnd]

theorem endIfChunk_ended {m : State} (h : startable m.mode = true) (bs : List Byte) :
    ∃ i g, endIfChunk (pushAll bs m) = { m with ign := i, ignSeen := g } := by
  obtain ⟨i, g, e⟩ := pushAll_ended h bs
  have notChunk : m.mode ≠ .chunk := fun hm => by rw [hm] at h; cases h
  exact ⟨i, g, by rw [e]; exact if_neg notChunk⟩

/-- Settles O49: the cases of the parse are those of CHUNK mode; input that ends early leaves CHUNK mode running, and END
raises UnexpectedEof (R230). -/
theorem chunkModeComputesChunkParse : Obligations.ChunkModeComputesChunkParse := by
  intro s bytes hs
  refine ⟨_, _, issue_chunkStart_pushb hs bytes, issue_endIfChunk _, ?_⟩
  have parse := parseChunk_case bytes
  generalize parseChunk bytes = outcome at parse
  cases parse with
  | headerCut short =>
    obtain ⟨p, -, place⟩ := pushAll_inside_header (s := chunkStart s) (.inl rfl) rfl rfl short
    rw [endIfChunk_running (congrArg Prod.fst place)]
    exact ⟨rfl, rfl, nofun, nofun⟩
  | @bodyCut l t body tag short =>
    obtain ⟨p, -, place⟩ := pushAll_header_cut (s := chunkStart s) (.inl rfl) rfl rfl tag short
    rw [endIfChunk_running (congrArg Prod.fst place)]
    exact ⟨rfl, rfl, nofun, nofun⟩
  | @badTag l t body tag =>
    rw [pushAll_append, pushAll_header_invalid (.inl rfl) rfl rfl tag]
    obtain ⟨i, g, e⟩ := endIfChunk_ended
      (m := fail .invalidTagBytes { (chunkStart s).withHeader l t with phase := .tag }) rfl body
    rw [e]
    exact ⟨rfl, rfl, fun _ => rfl, nofun⟩
  | @badChecksum c rest tag length checksum =>
    rw [pushAll_append, pushAll_chunkStart_serialize_mismatch s tag length checksum]
    obtain ⟨i, g, e⟩ := endIfChunk_ended
      (m := fail .checksumMismatch { (chunkStart s).withChunk c with phase := .crc }) rfl rest
    rw [e]
    exact ⟨rfl, rfl, nofun, fun _ => rfl⟩
  | @ok c rest valid =>
    rw [pushAll_append, pushAll_chunkStart_serialize s valid]
    obtain ⟨i, g, e⟩ := endIfChunk_ended
      (m := { (chunkStart s).withChunk c with chunks := 1#32, phase := .bound, mode := .done }) rfl rest
    have ⟨_, length, _⟩ := valid
    rw [e]
    exact ⟨rfl, rfl, rfl, rfl, rfl, rfl, (payload_of_serialize length rest).symm⟩

end Sys2Proof.Machine
end

section
/-! The framing of a stream against STREAM mode: the signature, and chunk after chunk from BOUND (44_deframer.md R211,
R213, R231, R239, R240). -/

namespace Sys2Proof.Machine

/-! ### The signature (R211) -/

/-- The verdict on the rest of a signature: SIGMATCH still set, and the bytes those that are left (R211). -/
def State.sigVerdict (s : State) (bs : List Byte) : Bool := s.sigmatch && decide (bs = signature.drop s.fcnt.toNat)

theorem signature_drop : ∀ f : BitVec 3, signature.drop f.toNat = signatureByte f :: signature.drop (f.toNat + 1) := by
  decide

theorem sigVerdict_cons (s : State) (b : Byte) (bs : List Byte) :
    s.sigVerdict (b :: bs) =
      (s.sigmatch && decide (b = signatureByte s.fcnt) && decide (bs = signature.drop (s.fcnt.toNat + 1))) := by
  simp only [State.sigVerdict, signature_drop, List.cons.injEq, Bool.decide_and, Bool.and_assoc]

/-- A counter that has counted one and counts `k` more (R39). -/
theorem count_succ (n : Word) (k : Nat) : n + 1#32 + BitVec.ofNat 32 k = n + BitVec.ofNat 32 (k + 1) := by bv_omega

/-- The bytes that are left of the signature, one at least, lead to BOUND or to BadSignature by their verdict. -/
theorem pushAll_signature_rest (bs : List Byte) : ∀ {s : State}, s.mode = .stream → s.phase = .sig → bs ≠ [] →
    s.fcnt.toNat + bs.length = 8 →
    pushAll bs s =
      if s.sigVerdict bs = true then
        { s with pos := s.pos + BitVec.ofNat 32 bs.length, sigmatch := true, fcnt := 0#3, phase := .bound }
      else fail .badSignature { s with pos := s.pos + BitVec.ofNat 32 bs.length, sigmatch := false, fcnt := 0#3 } := by
  induction bs with
  | nil => exact fun _ _ h => absurd rfl h
  | cons b bs ih =>
    intro s hm hp _ length
    rw [List.length_cons] at length
    rw [pushAll_cons, push_deframe b (.inr hm), deframePush_sig b hp, sigPush_eq, sigVerdict_cons]
    by_cases last : bs = []
    · subst last
      have seven : s.fcnt = 7#3 := by simp only [List.length_nil] at length; bv_omega
      have rest : decide (([] : List Byte) = signature.drop (s.fcnt.toNat + 1)) = true := by rw [seven]; rfl
      rw [if_neg (by simp [seven]), rest, Bool.and_true]
      by_cases ok : s.sigmatch = true ∧ b = signatureByte s.fcnt
      · have verdict : (s.sigmatch && decide (b = signatureByte s.fcnt)) = true := by simp [ok]
        rw [if_pos ok, if_pos verdict, ← ok.1]
        rfl
      · have verdict : (s.sigmatch && decide (b = signatureByte s.fcnt)) = false := by simpa using ok
        rw [if_neg ok, verdict, if_neg nofun]
        rfl
    · have := List.length_pos_iff.2 last
      obtain ⟨more, next⟩ := fcnt_counts (f := s.fcnt) (last := 7#3) (show _ < 8 by omega)
      have pos := count_succ s.pos bs.length
      have left : (s.fcnt + 1#3).toNat + bs.length = 8 := by omega
      rw [if_pos more]
      refine (ih (by exact hm) (by exact hp) last (by exact left)).trans ?_
      simp only [State.sigVerdict, next, pos, List.length_cons]

/-- The state behind the signature, at the first boundary (R211). -/
def State.behindSignature (s : State) : State := { s with pos := s.pos + 8#32, phase := .bound }

theorem pushAll_signature {s : State} (hm : s.mode = .stream) (hp : s.phase = .sig) (hf : s.fcnt = 0#3)
    (hs : s.sigmatch = true) : pushAll signature s = s.behindSignature := by
  have verdict : s.sigVerdict signature = true := by rw [State.sigVerdict, hs, hf]; rfl
  rw [pushAll_signature_rest signature hm hp nofun (by rw [hf]; rfl), if_pos verdict, ← hf, ← hs]
  rfl

theorem pushAll_not_signature {s : State} {bs : List Byte} (hm : s.mode = .stream) (hp : s.phase = .sig)
    (hf : s.fcnt = 0#3) (length : bs.length = 8) (differ : bs ≠ signature) :
    pushAll bs s = fail .badSignature { s with pos := s.pos + 8#32, sigmatch := false } := by
  have some : bs ≠ [] := by rintro rfl; cases length
  have verdict : s.sigVerdict bs ≠ true := by
    rw [State.sigVerdict, hf]
    simp [differ]
  rw [pushAll_signature_rest bs hm hp some (by rw [hf, length]; rfl), if_neg verdict, length, ← hf]

/-! ### END in STREAM mode, by phase (R231) -/

section
variable {s : State} (hm : s.mode = .stream)
include hm

theorem endInput_stream : endInput s = streamEnd s := by simp [endInput, hm]

theorem endInput_stream_sig (hp : s.phase = .sig) : endInput s = fail .badSignature s := by
  rw [endInput_stream hm, streamEnd, hp]

theorem endInput_stream_bound (hp : s.phase = .bound) : endInput s = { s with mode := .done } := by
  rw [endInput_stream hm, streamEnd, hp]

theorem endInput_stream_header (hp : s.phase = .len ∨ s.phase = .tag) : endInput s = fail .trailingBytes s := by
  rw [endInput_stream hm, streamEnd]
  rcases hp with hp | hp <;> rw [hp]

theorem endInput_stream_body (hp : s.phase = .data ∨ s.phase = .crc) : endInput s = fail .unexpectedEof s := by
  rw [endInput_stream hm, streamEnd]
  rcases hp with hp | hp <;> rw [hp]

/-! ### A chunk from BOUND (R213) -/

/-- The first byte at BOUND begins the chunk and is its first length byte. -/
theorem pushAll_at_bound (hp : s.phase = .bound) {bs : List Byte} (some : bs ≠ []) :
    pushAll bs s = pushAll bs (chunkBegin s.pos s) := by
  cases bs with
  | nil => exact absurd rfl some
  | cons b bs =>
    rw [pushAll_cons, pushAll_cons, push_deframe b (.inr hm), push_deframe b (s := chunkBegin s.pos s) (.inr hm),
      deframePush_bound b hp, deframePush_len b rfl]
    rfl

/-- The state at the boundary behind a good chunk of a stream (R219). -/
def State.behindChunk (s : State) (c : Record) : State :=
  { (chunkBegin s.pos s).withChunk c with chunks := s.chunks + 1#32, phase := .bound }

/-- A whole chunk with the right checksum leads to BOUND again, and CHUNKS counts it (R219). -/
theorem pushAll_chunkBegin_serialize {c : Record} (valid : c.valid) :
    pushAll (serialize c) (chunkBegin s.pos s) = s.behindChunk c := by
  obtain ⟨tag, length, checksum⟩ := valid
  rw [pushAll_serialize (s := chunkBegin s.pos s) (.inr hm) rfl rfl tag length]
  exact crcJudge_match_stream hm checksum

theorem pushAll_serialize_at_bound (hp : s.phase = .bound) {c : Record} (valid : c.valid) :
    pushAll (serialize c) s = s.behindChunk c := by
  rw [pushAll_at_bound hm hp (by rw [serialize, be32]; nofun), pushAll_chunkBegin_serialize hm valid]

end

/-! ### The chunks of a stream (R239) -/

theorem serialize_length (c : Record) : (serialize c).length = c.data.length + 12 := by
  simp only [serialize, List.length_append, be32_length]
  omega

theorem header_not_short (l t : Word) (body : List Byte) : ¬(be32 l ++ be32 t ++ body).length < 8 := by
  simp only [List.length_append, be32_length]
  omega

theorem serialize_not_short (c : Record) (rest : List Byte) : ¬(serialize c ++ rest).length < 8 := by
  rw [List.length_append, serialize_length]
  omega

/-- What the block shows of a framing at the end, of a stream that stood at `n` chunks before it (R239). -/
def ShowsFraming (f : Framing) (n : Word) (r : State) : Prop :=
  r.chunks = n + BitVec.ofNat 32 f.chunks.length
    ∧ match f.failure with
      | none => r.mode = .done ∧ r.err = none
      | some (k, off) => r.mode = .error ∧ r.err = some k ∧ r.cstart = BitVec.ofNat 32 off

/-- An error in a chunk that starts at `off`: the chunks before it are counted, and CSTART is its offset (R237). -/
theorem showsFraming_fail (k : ErrKind) {off : Nat} {n : Word} {m : State} (chunks : m.chunks = n)
    (cstart : m.cstart = BitVec.ofNat 32 off) : ShowsFraming ⟨[], some (k, off)⟩ n (fail k m) :=
  ⟨chunks.trans (BitVec.add_zero _).symm, rfl, rfl, cstart⟩

theorem showsFraming_nil {s : State} (hm : s.mode = .stream) (hp : s.phase = .bound) (err : s.err = none) :
    ShowsFraming ⟨[], none⟩ s.chunks (endInput (pushAll [] s)) := by
  rw [pushAll_nil, endInput_stream_bound hm hp]
  exact ⟨(BitVec.add_zero _).symm, rfl, err⟩

/-- From BOUND at offset `off`, the bytes that follow and END show the framing of those bytes. -/
theorem frameChunks_shown (n : Nat) : ∀ {off : Nat} {bytes : List Byte} {s : State}, bytes.length ≤ n →
    s.mode = .stream → s.phase = .bound → s.err = none → s.pos = BitVec.ofNat 32 off →
    ShowsFraming (frameChunks n off bytes) s.chunks (endInput (pushAll bytes s)) := by
  induction n with
  | zero =>
    intro off bytes s length hm hp err _
    obtain rfl : bytes = [] := List.eq_nil_of_length_eq_zero (Nat.le_zero.1 length)
    exact showsFraming_nil hm hp err
  | succ n ih =>
    intro off bytes s length hm hp err pos
    cases bytes with
    | nil => exact showsFraming_nil hm hp err
    | cons b bs =>
      rw [pushAll_at_bound hm hp (List.cons_ne_nil b bs), frameChunks]
      have parse := parseChunk_case (b :: bs)
      generalize parseChunk (b :: bs) = outcome at parse
      generalize b :: bs = bytes at parse length
      cases parse with
      | headerCut short =>
        obtain ⟨p, header, place⟩ := pushAll_inside_header (s := chunkBegin s.pos s) (.inr hm) rfl rfl short
        simp only [State.place, Prod.mk.injEq] at place
        obtain ⟨mode, phase, -, chunks, cstart⟩ := place
        rw [endInput_stream_header (mode.trans hm) (by rwa [phase])]
        simp only [short, if_true]
        exact showsFraming_fail _ chunks (cstart.trans pos)
      | @bodyCut l t body tag short =>
        obtain ⟨p, inBody, place⟩ := pushAll_header_cut (s := chunkBegin s.pos s) (.inr hm) rfl rfl tag short
        simp only [State.place, Prod.mk.injEq] at place
        obtain ⟨mode, phase, -, chunks, cstart⟩ := place
        rw [endInput_stream_body (mode.trans hm) (by rwa [phase])]
        simp only [header_not_short, if_false]
        exact showsFraming_fail _ chunks (cstart.trans pos)
      | @badTag l t body tag =>
        rw [pushAll_append, pushAll_header_invalid (s := chunkBegin s.pos s) (.inr hm) rfl rfl tag,
          endInput_pushAll_ended rfl]
        simp only [header_not_short, if_false]
        exact showsFraming_fail _ rfl pos
      | @badChecksum c rest tag dataLength checksum =>
        rw [pushAll_append, pushAll_serialize (s := chunkBegin s.pos s) (.inr hm) rfl rfl tag dataLength,
          crcJudge_mismatch (by exact checksum), endInput_pushAll_ended rfl]
        simp only [serialize_not_short, if_false]
        exact showsFraming_fail _ rfl pos
      | @ok c rest valid =>
        have ⟨_, dataLength, _⟩ := valid
        rw [pushAll_append, pushAll_chunkBegin_serialize hm valid]
        rw [List.length_append, serialize_length] at length
        have next : s.pos + 12#32 + c.length = BitVec.ofNat 32 (off + 12 + c.length.toNat) := by
          simp [pos, BitVec.ofNat_add]
        obtain ⟨chunks, failure⟩ := ih (bytes := rest) (s := s.behindChunk c) (by omega) hm rfl err next
        exact ⟨chunks.trans (count_succ ..), failure⟩

/-- Settles O50: the signature's verdict, then `frameChunks_shown` from BOUND at offset 8. -/
theorem streamModeComputesContainerFraming : Obligations.StreamModeComputesContainerFraming := by
  intro s bytes hs
  refine ⟨_, issue_streamStart_pushb_end hs bytes, ?_⟩
  suffices ShowsFraming (frameStream bytes) 0#32 (endInput (pushAll bytes (streamStart s))) by
    obtain ⟨chunks, failure⟩ := this
    exact ⟨chunks.trans (BitVec.zero_add _), failure⟩
  rw [frameStream]
  by_cases short : bytes.length < 8
  · have differ : bytes.take 8 ≠ signature := fun same => by
      have := congrArg List.length same
      rw [List.length_take, show signature.length = 8 from rfl] at this
      omega
    have place := pushAll_inside_field bytes (s := streamStart s) (.inr rfl) (by simpa [Phase.fieldBytes] using short)
    obtain ⟨mode, phase, -, chunks, cstart⟩ := place_eq_iff.1 place
    rw [if_neg differ, endInput_stream_sig mode phase]
    exact showsFraming_fail _ chunks cstart
  · have length : (bytes.take 8).length = 8 := by rw [List.length_take]; omega
    rw [← List.take_append_drop 8 bytes, pushAll_append, List.take_append_drop]
    by_cases same : bytes.take 8 = signature
    · rw [if_pos same, same, pushAll_signature rfl rfl rfl rfl]
      exact frameChunks_shown bytes.length (by rw [List.length_drop]; omega) rfl rfl rfl rfl
    · rw [if_neg same, pushAll_not_signature rfl rfl rfl length same, endInput_pushAll_ended rfl]
      exact showsFraming_fail _ rfl rfl

/-! ### A stream of frames (R240) -/

/-- From BOUND, the frames of valid tags lead to BOUND again, each counted and no byte ignored. -/
theorem pushAll_frames (fs : List (Word × List Byte)) : ∀ {s : State}, s.mode = .stream → s.phase = .bound →
    (∀ f ∈ fs, validTag f.1 = true ∧ f.2.length < 2 ^ 32) →
    let r := pushAll (fs.flatMap fun f => frame f.1 f.2) s
    r.mode = .stream ∧ r.phase = .bound ∧ r.err = s.err ∧ r.chunks = s.chunks + BitVec.ofNat 32 fs.length
      ∧ r.ign = s.ign := by
  induction fs with
  | nil => exact fun hm hp _ => ⟨hm, hp, rfl, (BitVec.add_zero _).symm, rfl⟩
  | cons f fs ih =>
    intro s hm hp valid
    obtain ⟨⟨tag, length⟩, others⟩ := List.forall_mem_cons.1 valid
    obtain ⟨mode, phase, err, chunks, ign⟩ := ih (s := s.behindChunk (frameRecord f.1 f.2)) hm rfl others
    rw [List.flatMap_cons, ← serialize_frameRecord, pushAll_append,
      pushAll_serialize_at_bound hm hp (frameRecord_valid tag length)]
    exact ⟨mode, phase, err, chunks.trans (count_succ ..), ign⟩

/-- Settles O52: the signature leads to BOUND, and so does every frame, where END succeeds. -/
theorem streamOfFramesRoundTrip : Obligations.StreamOfFramesRoundTrip := by
  intro s fs hs valid
  refine ⟨_, issue_streamStart_pushb_end hs _, ?_⟩
  rw [pushAll_append, pushAll_signature rfl rfl rfl rfl]
  obtain ⟨mode, phase, err, chunks, ign⟩ := pushAll_frames fs (s := (streamStart s).behindSignature) rfl rfl valid
  rw [endInput_stream_bound mode phase]
  exact ⟨rfl, err, chunks.trans (BitVec.zero_add _), ign⟩

end Sys2Proof.Machine
end

section
/-! The run of everything the bus delivers, event by event, and what that makes of wait states and of a host program
(45_host.md R283, R284; 70_reset_and_hazards.md R340). -/

namespace Sys2Proof.Machine

/-! ### The run, by what the bus delivers first -/

theorem runBus_nil (s : State) : runBus { s with bus := [] } = .next { s with bus := [] } := rfl

section
variable {M : Host.Core} {n : Nat} {s : M.State}

theorem run_succ_of_next {t : M.State} (h : M.step s = .next t) : M.run (n + 1) s = M.run n t := by
  rw [Host.Core.run, h]

theorem run_succ_of_fault {f : M.Fault} (h : M.step s = .fault f) : M.run (n + 1) s = .fault f := by
  rw [Host.Core.run, h]

theorem run_succ_of_refused {f : M.Refusal} (h : M.step s = .refused f) : M.run (n + 1) s = .refused f := by
  rw [Host.Core.run, h]

end

theorem runBus_of_next {s t : State} {e : BusEvent} {rest : List BusEvent}
    (h : step { s with bus := e :: rest } = .next { t with bus := rest }) :
    runBus { s with bus := e :: rest } = runBus { t with bus := rest } :=
  run_succ_of_next (M := core) h

/-- A transaction does the same whatever the bus delivers behind it (R61, R100). -/
theorem runBus_transaction (x : Txn) (s : State) : ∃ t : State, exec (decode x) s = .next t
    ∧ ∀ rest, runBus { s with bus := .transaction x :: rest } = runBus { t with bus := rest } := by
  obtain ⟨t, effect⟩ := exec_completes (decode x) s
  refine ⟨t, effect, fun rest => runBus_of_next ?_⟩
  obtain ⟨t', effect', withBus⟩ := exec_with_bus (decode x) s rest
  obtain rfl : t = t' := Host.Outcome.next.inj (effect.symm.trans effect')
  exact (step_of_bus_transaction rfl).trans withBus

section
variable (s : State) (rest : List BusEvent)

theorem runBus_waitState : runBus { s with bus := .platform .waitState :: rest } = runBus { s with bus := rest } :=
  runBus_of_next (step_with_bus_platform s .waitState rest)

theorem runBus_reset :
    runBus { s with bus := .platform .reset :: rest } = runBus { resetBlock s with bus := rest } :=
  runBus_of_next (step_with_bus_platform s .reset rest)

theorem runBus_stall : runBus { s with bus := .platform .stall :: rest } = .fault .busStalled :=
  run_succ_of_fault (M := core) (step_with_bus_platform s .stall rest)

theorem runBus_narrowAccess : runBus { s with bus := .platform .narrowAccess :: rest } = .refused .narrowAccess :=
  run_succ_of_refused (M := core) (step_with_bus_platform s .narrowAccess rest)

theorem runBus_secondMaster : runBus { s with bus := .platform .secondMaster :: rest } = .refused .secondMaster :=
  run_succ_of_refused (M := core) (step_with_bus_platform s .secondMaster rest)

theorem runBus_disorderedAccess :
    runBus { s with bus := .platform .disorderedAccess :: rest } = .refused .disorderedAccess :=
  run_succ_of_refused (M := core) (step_with_bus_platform s .disorderedAccess rest)

end

/-! ### Whole runs -/

/-- A run stops only at a stall, a narrow access, a second master's access or a disordered one (R284). -/
theorem runBus_ends (l : List BusEvent) : ∀ s : State, BusEvent.platform .stall ∉ l →
    BusEvent.platform .narrowAccess ∉ l → BusEvent.platform .secondMaster ∉ l →
    BusEvent.platform .disorderedAccess ∉ l → ∃ t : State, runBus { s with bus := l } = .next t ∧ t.bus = [] := by
  induction l with
  | nil => exact fun s _ _ _ _ => ⟨_, runBus_nil s, rfl⟩
  | cons e l ih =>
    intro s stall narrow master disordered
    have rest (t : State) : ∃ t' : State, runBus { t with bus := l } = .next t' ∧ t'.bus = [] :=
      ih t (stall ∘ .tail _) (narrow ∘ .tail _) (master ∘ .tail _) (disordered ∘ .tail _)
    cases e with
    | transaction x =>
      obtain ⟨t, -, run⟩ := runBus_transaction x s
      rw [run]
      exact rest t
    | platform e =>
      cases e with
      | waitState => rw [runBus_waitState]; exact rest s
      | reset => rw [runBus_reset]; exact rest (resetBlock s)
      | stall => exact absurd (List.mem_cons_self ..) stall
      | narrowAccess => exact absurd (List.mem_cons_self ..) narrow
      | secondMaster => exact absurd (List.mem_cons_self ..) master
      | disorderedAccess => exact absurd (List.mem_cons_self ..) disordered

/-- What a run makes of its first event does not depend on what the bus delivers behind it. -/
theorem runBus_cons_congr {l l' : List BusEvent}
    (h : ∀ s : State, runBus { s with bus := l } = runBus { s with bus := l' }) (e : BusEvent) (s : State) :
    runBus { s with bus := e :: l } = runBus { s with bus := e :: l' } := by
  cases e with
  | transaction x =>
    obtain ⟨t, -, run⟩ := runBus_transaction x s
    rw [run, run, h]
  | platform e =>
    cases e with
    | waitState => rw [runBus_waitState, runBus_waitState, h]
    | reset => rw [runBus_reset, runBus_reset, h]
    | stall => rw [runBus_stall, runBus_stall]
    | narrowAccess => rw [runBus_narrowAccess, runBus_narrowAccess]
    | secondMaster => rw [runBus_secondMaster, runBus_secondMaster]
    | disorderedAccess => rw [runBus_disorderedAccess, runBus_disorderedAccess]

/-- Wait states are not observable (R340). -/
theorem runBus_filter_waitState (l : List BusEvent) : ∀ s : State,
    runBus { s with bus := l.filter (fun e => e != .platform .waitState) } = runBus { s with bus := l } := by
  induction l with
  | nil => exact fun _ => rfl
  | cons e l ih =>
    intro s
    by_cases waits : e = .platform .waitState
    · rw [List.filter_cons_of_neg (by simpa using waits), ih, waits, runBus_waitState]
    · rw [List.filter_cons_of_pos (by simpa using waits)]
      exact runBus_cons_congr ih e s

/-- Settles O39: `runBus_ends` and `runBus_filter_waitState`, for what the bus holds. -/
theorem runsEndAndWaitStatesAreInvisible : Obligations.RunsEndAndWaitStatesAreInvisible := fun s =>
  ⟨fun master ⟨narrow, disordered⟩ stall => runBus_ends s.bus s stall narrow master disordered,
    runBus_filter_waitState s.bus s⟩

/-- Settles O40, by induction on the transactions: the run performs the first and leaves the others on the bus. -/
theorem runOfTransactionsIsIssue : Obligations.RunOfTransactionsIsIssue := by
  intro p
  induction p with
  | nil => exact fun s => ⟨s, rfl, runBus_nil s⟩
  | cons x p ih =>
    intro s
    obtain ⟨t, effect, run⟩ := runBus_transaction x s
    rw [issue_cons_of_next p effect, List.map_cons, run]
    exact ih t

end Sys2Proof.Machine
end

section
/-! Text as a tag (45_host.md R252), and a container's list by the string form of its tags (R258 to R260, R265). -/

namespace Sys2Proof.Machine

/-! ### ASCII letters as bytes (R130, R252) -/

theorem isAsciiLetter_iff (c : Char) :
    isAsciiLetter c = true ↔ (0x41 ≤ c.toNat ∧ c.toNat ≤ 0x5A) ∨ (0x61 ≤ c.toNat ∧ c.toNat ≤ 0x7A) := by
  simp only [isAsciiLetter, Bool.or_eq_true, Bool.and_eq_true, decide_eq_true_iff]

section
variable {c : Char} (h : isAsciiLetter c = true)
include h

/-- The code of a letter fits a byte. -/
theorem asciiByte_toNat : (asciiByte c).toNat = c.toNat := by
  have letter := (isAsciiLetter_iff c).1 h
  exact Nat.mod_eq_of_lt (by omega)

theorem isLetter_asciiByte : isLetter (asciiByte c) = true := by
  have letter := (isAsciiLetter_iff c).1 h
  rw [isLetter_iff]
  simp only [BitVec.le_def, asciiByte_toNat h]
  exact letter

theorem charOfNat_asciiByte : Char.ofNat (asciiByte c).toNat = c := by rw [asciiByte_toNat h, Char.ofNat_toNat]

theorem setWidth_asciiByte : (asciiByte c).setWidth 32 = BitVec.ofNat 32 c.toNat :=
  BitVec.eq_of_toNat_eq (by simp [asciiByte_toNat h])

end

/-! ### `from_string` -/

theorem ofWire_eq_shifts (b0 b1 b2 b3 : Byte) :
    ofWire b0 b1 b2 b3 =
      b0.setWidth 32 <<< 24 ||| b1.setWidth 32 <<< 16 ||| b2.setWidth 32 <<< 8 ||| b3.setWidth 32 := by
  rw [← shiftIn_four 0#32]
  simp only [shiftIn, BitVec.shiftLeft_or_distrib, ← BitVec.shiftLeft_add, BitVec.zero_shiftLeft, BitVec.zero_or]

theorem fromString_of_length {x : List Char} (h : x.length ≠ 4) : fromString x = .error .invalidTagLength := by
  unfold fromString
  split
  · exact absurd rfl h
  · rfl

theorem fromString_four (c0 c1 c2 c3 : Char) :
    fromString [c0, c1, c2, c3] =
      if [c0, c1, c2, c3].all isAsciiLetter then
        .ok (ofWire (asciiByte c0) (asciiByte c1) (asciiByte c2) (asciiByte c3))
      else .error .invalidTagBytes := by
  simp only [fromString, asciiByte, List.all_cons, List.all_nil, Bool.and_true, Bool.and_assoc]

theorem tagString_ofWire (b0 b1 b2 b3 : Byte) :
    tagString (ofWire b0 b1 b2 b3)
      = [Char.ofNat b0.toNat, Char.ofNat b1.toNat, Char.ofNat b2.toNat, Char.ofNat b3.toNat] := by
  rw [tagString, be32_ofWire]
  rfl

/-- Settles O60: the code of a letter is a byte, and four bytes in wire order are the word. -/
theorem fromStringAcceptsFourLetters : Obligations.FromStringAcceptsFourLetters := by
  refine fun x => ⟨fromString_of_length, ?four⟩
  case four =>
    rintro c0 c1 c2 c3 rfl letters t
    have four : fromString [c0, c1, c2, c3] = if letters then _ else _ := fromString_four c0 c1 c2 c3
    refine ⟨fun notAll => by rw [four, notAll]; rfl, fun all => ?_⟩
    have ⟨l0, l1, l2, l3⟩ : isAsciiLetter c0 = true ∧ isAsciiLetter c1 = true ∧ isAsciiLetter c2 = true
        ∧ isAsciiLetter c3 = true := by
      simpa only [List.all_cons, List.all_nil, Bool.and_true, Bool.and_eq_true] using
        show [c0, c1, c2, c3].all isAsciiLetter = true from all
    have spelled : ofWire (asciiByte c0) (asciiByte c1) (asciiByte c2) (asciiByte c3) = t := by
      rw [ofWire_eq_shifts, setWidth_asciiByte l0, setWidth_asciiByte l1, setWidth_asciiByte l2, setWidth_asciiByte l3]
    rw [← spelled, four, all]
    refine ⟨rfl, ?valid, ?string⟩
    case valid => simp [validTag_iff, isLetter_asciiByte, l0, l1, l2, l3]
    case string => simp only [tagString_ofWire, charOfNat_asciiByte, l0, l1, l2, l3]

/-! ### A container's list, by tag -/

section
variable {x : List Char}

theorem hasTagString_iff {c : Record} : hasTagString x c = true ↔ tagString c.tag = x := beq_iff_eq

/-- No record with the tag: the lookup finds none. -/
theorem find?_hasTagString_absent {p : Container} (absent : ∀ e ∈ p, tagString e.tag ≠ x) :
    p.find? (hasTagString x) = none :=
  List.find?_eq_none.2 fun e he found => absent e he (hasTagString_iff.1 found)

section
variable {a b : Container} {c : Record} (absent : ∀ e ∈ a, tagString e.tag ≠ x) (tag : tagString c.tag = x)
include absent tag

theorem chunkByType_first : chunkByType (a ++ c :: b) x = some c := by
  rw [chunkByType, List.find?_append, find?_hasTagString_absent absent, Option.none_or,
    List.find?_cons_of_pos (hasTagString_iff.2 tag)]

/-- The records around the first match stay, in their order (R260). -/
theorem removeChunk_first : removeChunk (a ++ c :: b) x = .ok (c, a ++ b) := by
  have found : (a ++ c :: b).find? (hasTagString x) = some c := chunkByType_first absent tag
  have others : ∀ e ∈ a, ¬hasTagString x e = true := fun e he found => absent e he (hasTagString_iff.1 found)
  simp only [removeChunk, found]
  rw [List.eraseP_append_right _ others, List.eraseP_cons_of_pos (hasTagString_iff.2 tag)]

end

theorem removeChunk_absent {p : Container} (absent : ∀ e ∈ p, tagString e.tag ≠ x) :
    removeChunk p x = .error .chunkNotFound := by
  simp only [removeChunk, find?_hasTagString_absent absent]

end

/-- Settles O58: the appended record is the first with its tag, and nothing stands behind it. -/
theorem appendLookupAndRemove : Obligations.AppendLookupAndRemove := by
  refine ⟨fun p c absent => ?appended, fun p x => ⟨fun absent => ?absent, fun a b c split absent tag => ?present⟩⟩
  case appended => rw [appendChunk, removeChunk_first absent rfl, List.append_nil]
  case absent => exact ⟨find?_hasTagString_absent absent, removeChunk_absent absent⟩
  case present => rw [split]; exact ⟨chunkByType_first absent tag, removeChunk_first absent tag⟩

end Sys2Proof.Machine
end

section
/-! The host's procedures over the block: reading a register, `Chunk::new` and `Chunk::parse` (45_host.md R253 to
R255). -/

namespace Sys2Proof.Machine

/-! ### What the host reads -/

section
variable (s : State)

@[simp] theorem State.valueAt_status : s.valueAt (.reg .status) = statusWord s := rfl
@[simp] theorem State.valueAt_crcValue : s.valueAt (.reg .crcValue) = crcFinish s.crcState := rfl
@[simp] theorem State.valueAt_tag : s.valueAt (.reg .tag) = s.tag := rfl
@[simp] theorem State.valueAt_len : s.valueAt (.reg .len) = s.len := rfl
@[simp] theorem State.valueAt_rxcrc : s.valueAt (.reg .rxcrc) = s.rxcrc := rfl
@[simp] theorem State.valueAt_pos : s.valueAt (.reg .pos) = s.pos := rfl
@[simp] theorem State.valueAt_cstart : s.valueAt (.reg .cstart) = s.cstart := rfl

@[simp] theorem modeField_statusWord : modeField (statusWord s) = modeCode s.mode := statusWord_mode s

@[simp] theorem errField_statusWord : errField (statusWord s) = errCode s.err := statusWord_err s

end

theorem modeCode_eq_chunk_iff (m : Mode) : modeCode m = 3#3 ↔ m = .chunk := by cases m <;> decide

theorem errKindOfCode_errKindCode (k : ErrKind) : errKindOfCode (errKindCode k) = some k := by cases k <;> rfl

/-- The state after reads: only the values read have grown (20_memory.md R57). -/
def State.withReads (s : State) (vs : List Word) : State := { s with rdata := s.rdata ++ vs }

section
variable (s : State) (vs : List Word)

@[simp] theorem State.withReads_mode : (s.withReads vs).mode = s.mode := rfl
@[simp] theorem State.withReads_crcState : (s.withReads vs).crcState = s.crcState := rfl
@[simp] theorem State.withReads_tag : (s.withReads vs).tag = s.tag := rfl
@[simp] theorem State.withReads_len : (s.withReads vs).len = s.len := rfl
@[simp] theorem State.withReads_rxcrc : (s.withReads vs).rxcrc = s.rxcrc := rfl
@[simp] theorem State.withReads_pos : (s.withReads vs).pos = s.pos := rfl
@[simp] theorem State.withReads_cstart : (s.withReads vs).cstart = s.cstart := rfl
@[simp] theorem statusWord_withReads : statusWord (s.withReads vs) = statusWord s := rfl

end

@[simp] theorem State.withReads_withReads (s : State) (vs ws : List Word) :
    (s.withReads vs).withReads ws = s.withReads (vs ++ ws) := by
  simp only [State.withReads, List.append_assoc]

@[simp] theorem readReg_eq_valueAt (r : Reg) (s : State) :
    readReg r s = some (s.valueAt (.reg r), s.withReads [s.valueAt (.reg r)]) :=
  readReg_eq (exec_decodeRead ..)

/-- The failure is that of the block whose STATUS was read, and so are its two offsets (R237, R257). -/
theorem readFailure_eq {s : State} {k : ErrKind} (err : s.err = some k) (vs : List Word) :
    readFailure (statusWord s) (s.withReads vs)
      = some (⟨k, s.cstart, s.pos⟩, s.withReads (vs ++ [s.cstart, s.pos])) := by
  simp [readFailure, err, errCode, errKindOfCode_errKindCode]

/-! ### `Chunk::new` and `serialize` (R253, R254) -/

/-- A record the host may make serializes to a frame. -/
theorem serialize_eq_frame {c : Record} (valid : c.valid) : serialize c = frame c.tag c.data := by
  obtain ⟨-, length, checksum⟩ := valid
  have stored : c.length = BitVec.ofNat 32 c.data.length := by rw [length, BitVec.ofNat_toNat, BitVec.setWidth_eq]
  rw [serialize, frame, ← stored, ← checksum]

/-- The block behind `wr TAG` and `cmd FRAME_START` (R181, R186). -/
def State.framing (s : State) (t : Word) : State :=
  { frameClear { s with tag := t, hdrv := false } with crcState := crcUpdate crcInit (be32 t), mode := .frame }

/-- The block behind the payload and END (R182, R184). -/
def State.framed (s : State) (t : Word) (d : List Byte) : State :=
  { s.framing t with
    mode := .done, crcState := crcUpdate crcInit (be32 t ++ d), len := BitVec.ofNat 32 d.length,
    pos := BitVec.ofNat 32 d.length }

section
variable (s : State) (t : Word) (d : List Byte)

@[simp] theorem State.framing_mode : (s.framing t).mode = .frame := rfl
@[simp] theorem State.framed_mode : (s.framed t d).mode = .done := rfl
@[simp] theorem State.framed_len : (s.framed t d).len = BitVec.ofNat 32 d.length := rfl
@[simp] theorem State.framed_tag : (s.framed t d).tag = t := rfl

/-- The tag's bytes seed the checksum, the payload's bytes continue it (R190). -/
@[simp] theorem State.framed_crcValue : crcFinish (s.framed t d).crcState = crc32 (be32 t ++ d) := rfl

end

theorem issue_framing {s : State} {t : Word} (hs : Startable s) (ht : validTag t = true) :
    issue [asmWr (.reg .tag) t, asmCmd .frameStart] s = some (s.framing t) := by
  rw [issue_wrTag hs]
  exact issue_frameStart (s := { s with tag := t, hdrv := false }) hs ht []

theorem issue_framed (s : State) (t : Word) {d : List Byte} (hd : d.length < 2 ^ 32) (vs : List Word) :
    issue (asmPushb d ++ [asmCmd .endInput]) ((s.framing t).withReads vs) = some ((s.framed t d).withReads vs) := by
  rw [issue_payload_end (s := (s.framing t).withReads vs) rfl rfl rfl hd, State.framed, crcUpdate_append]
  rfl

/-- The record is made of the three registers read after END (R253). -/
theorem hostChunkNew_eq {s : State} {t : Word} {d : List Byte} (hs : Startable s) (ht : validTag t = true)
    (hd : d.length < 2 ^ 32) :
    hostChunkNew t d s =
      some (.ok (frameRecord t d), (s.framed t d).withReads
        [statusWord (s.framing t), statusWord (s.framed t d), BitVec.ofNat 32 d.length, t, crc32 (be32 t ++ d)]) := by
  simp [hostChunkNew, issue_framing hs ht, issue_framed s t hd, modeCode, frameRecord]

/-- Settles O54: `hostChunkNew_eq` and `serialize_eq_frame`. -/
theorem hostChunkNewAndSerialize : Obligations.HostChunkNewAndSerialize :=
  ⟨fun _ _ _ hs ht hd => ⟨_, hostChunkNew_eq hs ht hd⟩, fun _ valid => serialize_eq_frame valid⟩

/-! ### `Chunk::parse` (R255) -/

theorem endIfChunk_withReads (s : State) (vs : List Word) :
    endIfChunk (s.withReads vs) = (endIfChunk s).withReads vs := by
  by_cases hm : s.mode = .chunk
  · rw [endIfChunk_running hm, endIfChunk_running (m := s.withReads vs) hm]
    rfl
  · rw [endIfChunk, endIfChunk, if_neg hm, State.withReads_mode, if_neg hm]

/-- The host ends the input where STATUS shows CHUNK mode (R255 step 3). -/
theorem issue_end_by_mode (s : State) (vs : List Word) :
    issue (if modeCode s.mode = 3#3 then [asmCmd .endInput] else []) (s.withReads vs)
      = some ((endIfChunk s).withReads vs) := by
  rw [← endIfChunk_withReads, endIfChunk, State.withReads_mode]
  simp only [modeCode_eq_chunk_iff]
  split
  · exact issue_endInput _
  · rfl

theorem endIfChunk_eq_of_issue {m r : State}
    (ended : if m.mode = .chunk then issue [asmCmd .endInput] m = some r else r = m) : endIfChunk m = r := by
  unfold endIfChunk
  split at ended
  · rw [if_pos ‹_›]
    exact Option.some.inj ((issue_endInput m).symm.trans ended)
  · rw [if_neg ‹_›, ended]

section
variable {s r : State} (hs : Startable s) {bytes : List Byte} (parsed : endIfChunk (pushAll bytes (chunkStart s)) = r)
include hs parsed

theorem hostParseChunk_of_done (done : r.mode = .done) :
    hostParseChunk bytes s =
      some (.ok ⟨r.len, r.tag, (bytes.drop 8).take r.len.toNat, r.rxcrc⟩, r.withReads
        [statusWord (pushAll bytes (chunkStart s)), statusWord r, r.len, r.tag, r.rxcrc]) := by
  have shown : modeCode r.mode = 5#3 := by rw [done]; rfl
  simp [hostParseChunk, issue_chunkStart_pushb hs, issue_end_by_mode, parsed, shown]

theorem hostParseChunk_of_error {k : ErrKind} (error : r.mode = .error) (err : r.err = some k) :
    hostParseChunk bytes s =
      some (.error ⟨k, r.cstart, r.pos⟩, r.withReads
        [statusWord (pushAll bytes (chunkStart s)), statusWord r, r.cstart, r.pos]) := by
  have shown : ¬modeCode r.mode = 5#3 := by rw [error]; nofun
  simp [hostParseChunk, issue_chunkStart_pushb hs, issue_end_by_mode, parsed, shown, readFailure_eq err]

end

/-- Settles O55: what the block shows at the end is that of R238, and the host's record and failure are made of it. -/
theorem hostParseChunkIsChunkParse : Obligations.HostParseChunkIsChunkParse := by
  intro s bytes hs
  obtain ⟨m, r, pushed, ended, outcome⟩ := chunkModeComputesChunkParse s bytes hs
  obtain rfl := Option.some.inj ((issue_chunkStart_pushb hs bytes).symm.trans pushed)
  have parsed := endIfChunk_eq_of_issue ended
  cases parse : parseChunk bytes with
  | ok record =>
    rw [parse] at outcome
    obtain ⟨done, -, len, tag, rxcrc, -, data⟩ := outcome
    have host := hostParseChunk_of_done hs parsed done
    rw [len, tag, rxcrc, ← data] at host
    exact ⟨_, host⟩
  | error k =>
    rw [parse] at outcome
    obtain ⟨error, err, -⟩ := outcome
    exact ⟨_, _, rfl, hostParseChunk_of_error hs parsed error err⟩

end Sys2Proof.Machine
end

section
/-! `Container::parse` over the block, the host's walk over the buffer, and as_bytes (45_host.md R256, R257, R261,
R265). -/

namespace Sys2Proof.Machine

/-! ### The procedure (R256) -/

section
variable {s r : State} (hs : Startable s) {bytes : List Byte} (parsed : endInput (pushAll bytes (streamStart s)) = r)
include hs parsed

theorem hostParseContainer_of_done (done : r.mode = .done) :
    hostParseContainer bytes s =
      (walkRecords bytes.length (bytes.drop 8)).map fun p => (.ok p, r.withReads [statusWord r]) := by
  have shown : modeCode r.mode = 5#3 := by rw [done]; rfl
  simp [hostParseContainer, issue_streamStart_pushb_end hs, parsed, shown, Option.map_eq_bind]

theorem hostParseContainer_of_error {k : ErrKind} (error : r.mode = .error) (err : r.err = some k) :
    hostParseContainer bytes s =
      some (.error ⟨k, r.cstart, r.pos⟩, r.withReads [statusWord r, r.cstart, r.pos]) := by
  have shown : ¬modeCode r.mode = 5#3 := by rw [error]; nofun
  simp [hostParseContainer, issue_streamStart_pushb_end hs, parsed, shown, readFailure_eq err]

end

/-! ### The walk (R256 step 3) -/

theorem walkRecords_nil (n : Nat) : walkRecords n [] = some [] := by cases n <;> rfl

theorem walkRecords_serialize {c : Record} (length : c.data.length = c.length.toNat) (n : Nat) (rest : List Byte) :
    walkRecords (n + 1) (serialize c ++ rest) = (walkRecords n rest).map (c :: ·) := by
  have fields : serialize c ++ rest = be32 c.length ++ (be32 c.tag ++ (c.data ++ (be32 c.checksum ++ rest))) := by
    simp only [serialize, List.append_assoc]
  cases bytes : serialize c ++ rest with
  | nil => rw [bytes] at fields; cases fields
  | cons b bs =>
    rw [walkRecords, ← bytes, fields]
    simp only [takeWord_be32, List.drop_left' length, List.take_left' length]

/-- The walk over serialized records gives them back; a round a record is no more than a round a byte. -/
theorem walkRecords_flatMap_serialize {p : Container} (lengths : ∀ c ∈ p, c.data.length = c.length.toNat) :
    ∀ {n : Nat}, (p.flatMap serialize).length ≤ n → walkRecords n (p.flatMap serialize) = some p := by
  induction p with
  | nil => exact fun _ => walkRecords_nil _
  | cons c p ih =>
    intro n enough
    obtain ⟨length, others⟩ := List.forall_mem_cons.1 lengths
    rw [List.flatMap_cons, List.length_append, serialize_length] at enough
    obtain ⟨n, rfl⟩ : ∃ m, n = m + 1 := ⟨n - 1, by omega⟩
    rw [List.flatMap_cons, walkRecords_serialize length, ih others (by omega)]
    rfl

theorem walkRecords_asBytes {p : Container} (valid : ∀ c ∈ p, c.valid) :
    walkRecords (asBytes p).length ((asBytes p).drop 8) = some p := by
  rw [asBytes, List.drop_left' (by rfl)]
  refine walkRecords_flatMap_serialize (fun c hc => ?_) (by simp)
  obtain ⟨-, length, -⟩ := valid c hc
  exact length

/-! ### A stream without a failure is the signature and serialized records (R239, R261) -/

theorem frameChunks_complete (n : Nat) : ∀ {off : Nat} {bytes : List Byte}, (frameChunks n off bytes).failure = none →
    (frameChunks n off bytes).chunks.flatMap serialize = bytes ∧ ∀ c ∈ (frameChunks n off bytes).chunks, c.valid := by
  induction n with
  | zero =>
    intro off bytes complete
    cases bytes with
    | nil => exact ⟨rfl, nofun⟩
    | cons b bs => cases complete
  | succ n ih =>
    intro off bytes complete
    cases bytes with
    | nil => exact ⟨rfl, nofun⟩
    | cons b bs =>
      rw [frameChunks] at complete ⊢
      have parse := parseChunk_case (b :: bs)
      generalize parseChunk (b :: bs) = outcome at parse complete
      generalize b :: bs = bytes at parse complete
      cases parse with
      | headerCut | badTag | bodyCut | badChecksum => cases complete
      | @ok c rest valid =>
        obtain ⟨bytes, others⟩ := ih complete
        exact ⟨congrArg (serialize c ++ ·) bytes, List.forall_mem_cons.2 ⟨valid, others⟩⟩

theorem frameStream_complete {bytes : List Byte} (complete : (frameStream bytes).failure = none) :
    asBytes (frameStream bytes).chunks = bytes ∧ ∀ c ∈ (frameStream bytes).chunks, c.valid := by
  rw [frameStream] at complete ⊢
  by_cases same : bytes.take 8 = signature
  · rw [if_pos same] at complete ⊢
    obtain ⟨records, valid⟩ := frameChunks_complete _ complete
    exact ⟨by rw [asBytes, records, ← same, List.take_append_drop], valid⟩
  · rw [if_neg same] at complete
    cases complete

/-- Settles O56: the block's framing has no failure, so the buffer is the signature and serialized records, and the walk
gives these. -/
theorem parsedContainerReproducesTheBuffer : Obligations.ParsedContainerReproducesTheBuffer := by
  intro s r bytes p hs host
  obtain ⟨m, issued, chunks, outcome⟩ := streamModeComputesContainerFraming s bytes hs
  have parsed := Option.some.inj ((issue_streamStart_pushb_end hs bytes).symm.trans issued)
  cases failure : (frameStream bytes).failure with
  | none =>
    rw [failure] at outcome
    obtain ⟨buffer, valid⟩ := frameStream_complete failure
    have walk := walkRecords_asBytes valid
    rw [buffer] at walk
    rw [hostParseContainer_of_done hs parsed outcome.1, walk] at host
    cases host
    exact ⟨buffer, valid, chunks⟩
  | some f =>
    rw [failure] at outcome
    obtain ⟨error, err, -⟩ := outcome
    rw [hostParseContainer_of_error hs parsed error err] at host
    cases host

/-- The frames of a container's tags and payloads are its serialized records (R254). -/
theorem flatMap_serialize_eq_frames {p : Container} (valid : ∀ c ∈ p, c.valid) :
    p.flatMap serialize = (p.map fun c => (c.tag, c.data)).flatMap fun f => frame f.1 f.2 := by
  rw [List.flatMap_map]
  exact List.flatMap_congr fun c hc => serialize_eq_frame (valid c hc)

/-- Settles O57: the block accepts the frames (R240), and the walk gives the records back. -/
theorem containerRoundTrip : Obligations.ContainerRoundTrip := by
  intro s p hs valid
  have frames : ∀ f ∈ p.map fun c => (c.tag, c.data), validTag f.1 = true ∧ f.2.length < 2 ^ 32 := by
    rintro _ h
    obtain ⟨c, hc, rfl⟩ := List.mem_map.1 h
    obtain ⟨tag, length, -⟩ := valid c hc
    exact ⟨tag, length ▸ c.length.isLt⟩
  obtain ⟨r, issued, done, -⟩ := streamOfFramesRoundTrip s _ hs frames
  rw [← flatMap_serialize_eq_frames valid, ← asBytes, issue_streamStart_pushb_end hs] at issued
  have host := hostParseContainer_of_done hs (Option.some.inj issued) done
  rw [walkRecords_asBytes valid] at host
  exact ⟨_, host⟩

end Sys2Proof.Machine
end

section
/-! Which transaction raises which error (60_exceptions.md R300 to R308), and what a transaction may change in ERROR (R312,
R313). -/

namespace Sys2Proof.Machine

/-! ### The errors of a byte -/

/-- A byte in state `s` raises an error of this kind and leaves `t`: the field that ends with it stands in PHASE with FCNT =
0, and LengthOverflow leaves LEN at its greatest value (R301, R303, R304, R307). SIG is a phase of STREAM mode by R47. -/
inductive ByteRaises (s t : State) : ErrKind → Prop
  | tag (mode : s.mode = .chunk ∨ s.mode = .stream) (phase : t.phase = .tag) (fcnt : t.fcnt = 0#3) :
      ByteRaises s t .invalidTagBytes
  | checksum (mode : s.mode = .chunk ∨ s.mode = .stream) (phase : t.phase = .crc) (fcnt : t.fcnt = 0#3) :
      ByteRaises s t .checksumMismatch
  | signature (mode : s.mode = .chunk ∨ s.mode = .stream) (stream : StatusInv s → s.mode = .stream)
      (phase : t.phase = .sig) (fcnt : t.fcnt = 0#3) : ByteRaises s t .badSignature
  | length (mode : s.mode = .frame) (len : t.len = 0xFFFFFFFF#32) : ByteRaises s t .lengthOverflow

/-- A byte sequence leads from `s` to `t` without an error, or with one its bytes raise, and then to ERROR. -/
def KeepsErrOrRaises (s t : State) : Prop := t.err = s.err ∨ ∃ k, t.mode = .error ∧ t.err = some k ∧ ByteRaises s t k

theorem deframePush_keepsErrOrRaises {s : State} (b : Byte) (hm : s.mode = .chunk ∨ s.mode = .stream) :
    KeepsErrOrRaises s (deframePush b s) := by
  cases hp : s.phase with
  | none => rw [deframePush_none b hp]; exact .inl rfl
  | sig =>
    have stream : StatusInv s → s.mode = .stream := fun ⟨legal, _⟩ => stream_of_statusLegal hm (.inl hp) legal
    rw [deframePush_sig b hp, sigPush_eq]
    split
    · exact .inl rfl
    split
    · exact .inl rfl
    · exact .inr ⟨_, rfl, rfl, .signature hm stream hp rfl⟩
  | bound => rw [deframePush_bound b hp, lenPush_eq]; split <;> exact .inl rfl
  | len => rw [deframePush_len b hp, lenPush_eq]; split <;> exact .inl rfl
  | tag =>
    rw [deframePush_tag b hp, tagPush_eq]
    split
    · exact .inl rfl
    split
    · exact .inl rfl
    · exact .inr ⟨_, rfl, rfl, .tag hm hp rfl⟩
  | data => rw [deframePush_data b hp, dataPush_eq]; exact .inl rfl
  | crc =>
    rw [deframePush_crc b hp, checksumPush_eq]
    split
    · exact .inl rfl
    split
    · exact .inl rfl
    · exact .inr ⟨_, rfl, rfl, .checksum hm hp rfl⟩

theorem framePush_keepsErrOrRaises {s : State} (b : Byte) (hm : s.mode = .frame) :
    KeepsErrOrRaises s (framePush b s) := by
  unfold framePush
  split
  · exact .inr ⟨_, rfl, rfl, .length hm ‹_›⟩
  · exact .inl rfl

theorem push_keepsErrOrRaises (b : Byte) (s : State) : KeepsErrOrRaises s (push b s) := by
  rcases push_cases b s with ⟨-, e⟩ | ⟨-, e⟩ | ⟨hm, e⟩ | ⟨hm, e⟩ <;> rw [e]
  · exact .inl rfl
  · exact .inl rfl
  · exact framePush_keepsErrOrRaises b hm
  · exact deframePush_keepsErrOrRaises b hm

/-! ### The errors of a byte sequence -/

theorem ByteRaises.running {s t : State} {k : ErrKind} (h : ByteRaises s t k) : startable s.mode = false := by
  cases h with
  | tag mode | checksum mode | signature mode => rcases mode with mode | mode <;> rw [mode] <;> rfl
  | length mode => rw [mode]; rfl

/-- An error raised behind a byte is raised in the mode that the byte found: a byte starts no function. -/
theorem ByteRaises.of_push {s t : State} {b : Byte} {k : ErrKind} (h : ByteRaises (push b s) t k) : ByteRaises s t k := by
  have same : (push b s).mode = s.mode := (push_mode b s).resolve_right (by rw [h.running]; nofun)
  cases h with
  | tag mode phase fcnt => exact .tag (same ▸ mode) phase fcnt
  | checksum mode phase fcnt => exact .checksum (same ▸ mode) phase fcnt
  | signature mode stream phase fcnt =>
    exact .signature (same ▸ mode) (fun legal => same ▸ stream (push_statusInv b legal)) phase fcnt
  | length mode len => exact .length (same ▸ mode) len

/-- The bytes behind an error are ignored accesses and leave its record (R102, R111). -/
theorem ByteRaises.setIgn {s t : State} {k : ErrKind} (h : ByteRaises s t k) : ByteRaises s (setIgn t) k := by
  cases h with
  | tag mode phase fcnt => exact .tag mode phase fcnt
  | checksum mode phase fcnt => exact .checksum mode phase fcnt
  | signature mode stream phase fcnt => exact .signature mode stream phase fcnt
  | length mode len => exact .length mode len

theorem pushAll_keepsErrOrRaises (bs : List Byte) : ∀ s : State, KeepsErrOrRaises s (pushAll bs s) := by
  induction bs with
  | nil => exact fun _ => .inl rfl
  | cons b bs ih =>
    intro s
    rw [pushAll_cons]
    rcases push_keepsErrOrRaises b s with kept | ⟨k, mode, err, raises⟩
    · rcases ih (push b s) with kept' | ⟨k, mode, err, raises⟩
      · exact .inl (kept'.trans kept)
      · exact .inr ⟨k, mode, err, raises.of_push⟩
    · rw [pushAll_startable bs (by rw [mode]; rfl)]
      split
      · exact .inr ⟨k, mode, err, raises⟩
      · exact .inr ⟨k, mode, err, raises.setIgn⟩

/-! ### The errors of END and of FRAME_START -/

/-- END in state `s` raises an error of this kind (R230, R231). -/
inductive EndRaises (s : State) : ErrKind → Prop
  | cut (inside : s.mode = .chunk ∨ (s.mode = .stream ∧ (s.phase = .data ∨ s.phase = .crc))) :
      EndRaises s .unexpectedEof
  | signature (mode : s.mode = .stream) (phase : s.phase = .sig) : EndRaises s .badSignature
  | header (mode : s.mode = .stream) (phase : s.phase = .len ∨ s.phase = .tag) : EndRaises s .trailingBytes

theorem streamEnd_raises {s : State} (hm : s.mode = .stream) :
    (streamEnd s).err = s.err ∨ ∃ k, (streamEnd s).err = some k ∧ EndRaises s k := by
  unfold streamEnd
  cases hp : s.phase with
  | none | bound => exact .inl rfl
  | sig => exact .inr ⟨_, rfl, .signature hm hp⟩
  | len => exact .inr ⟨_, rfl, .header hm (.inl hp)⟩
  | tag => exact .inr ⟨_, rfl, .header hm (.inr hp)⟩
  | data => exact .inr ⟨_, rfl, .cut (.inr ⟨hm, .inl hp⟩)⟩
  | crc => exact .inr ⟨_, rfl, .cut (.inr ⟨hm, .inr hp⟩)⟩

theorem endInput_raises (s : State) :
    (endInput s).err = s.err ∨ ∃ k, (endInput s).err = some k ∧ EndRaises s k := by
  unfold endInput
  cases hm : s.mode with
  | idle | done | error | crc | frame => exact .inl rfl
  | chunk => exact .inr ⟨_, rfl, .cut (.inl hm)⟩
  | stream => exact streamEnd_raises hm

theorem frameStart_raises (s : State) :
    (frameStart s).err = none
      ∨ (validTag s.tag = false ∧ (frameStart s).err = some .invalidTagBytes ∧ (frameStart s).phase = .none) := by
  cases valid : validTag s.tag with
  | true => rw [frameStart_valid valid]; exact .inl rfl
  | false => rw [frameStart, if_neg (by simp [valid])]; exact .inr ⟨rfl, rfl, rfl⟩

/-- Settles O32: FRAME_START, END and a data input raise the kinds of `frameStart_raises`, `EndRaises` and `ByteRaises`; all
else keeps ERR or clears it. -/
theorem errorsAreRaisedWhereTheTableSays : Obligations.ErrorsAreRaisedWhereTheTableSays := by
  intro i s t k h after before din ends
  cases exec_transacts h with
  | ignored | read | nop | clrIgn | crcState | tag | tagchk => exact absurd after before
  | abort | crcStart | chunkStart | streamStart => cases after
  | @frameStart g _ guard =>
    rcases frameStart_raises s with clear | ⟨invalid, err, phase⟩
    · cases clear.symm.trans after
    · cases err.symm.trans after
      exact .inl ⟨⟨g, rfl⟩, guard, invalid, phase⟩
  | @endInput g =>
    have isEnd : ends := ⟨g, rfl⟩
    rcases endInput_raises s with kept | ⟨k', err, raises⟩
    · exact absurd (kept.symm.trans after) before
    · cases err.symm.trans after
      cases raises with
      | cut inside => exact ⟨isEnd, inside⟩
      | signature mode phase => exact .inr ⟨isEnd, mode, phase⟩
      | header mode phase => exact ⟨isEnd, mode, phase⟩
  | @input _ _ bs bytes =>
    have isDin : din := i.eq_of_inputBytes bytes
    rcases pushAll_keepsErrOrRaises bs s with kept | ⟨k', -, err, raises⟩
    · exact absurd (kept.symm.trans after) before
    · cases err.symm.trans after
      cases raises with
      | tag mode phase fcnt => exact .inr ⟨isDin, mode, phase, fcnt⟩
      | checksum mode phase fcnt => exact ⟨isDin, mode, phase, fcnt⟩
      | signature mode stream phase fcnt => exact .inl ⟨isDin, mode, stream, phase, fcnt⟩
      | length mode len => exact ⟨isDin, mode, len⟩

/-! ### ERROR mode -/

/-- Settles O33: in ERROR no function takes a byte or END; of the transactions left, WR_TAG and WR_CRC_STATE alone touch a
field the statement names. -/
theorem errorModeKeepsTheError : Obligations.ErrorModeKeepsTheError := by
  intro i s hm others
  obtain ⟨t, h⟩ := exec_completes i s
  refine ⟨t, h, ?_⟩
  have noFunction : startable s.mode ≠ false := by rw [hm]; nofun
  cases exec_transacts h with
  | ignored | read | nop | clrIgn | tagchk | tag | crcState => simp [hm]
  | @abort g | @crcStart g | @frameStart g | @chunkStart g | @streamStart g => simpa using others g
  | endInput running | input _ running => exact absurd running noFunction

end Sys2Proof.Machine
end

section
/-! The two ways back to the reset state (70_reset_and_hazards.md R330, R331): the platform's reset event, and the soft-reset
sequence, which the host performs. -/

namespace Sys2Proof.Machine

/-- Settles O36: the step is the reset event's, and `resetBlock` is R46's values beside the model's own fields. -/
theorem resetEventGivesTheResetState : Obligations.ResetEventGivesTheResetState := by
  intro s rest h
  rw [step_of_bus_platform h, platformEvent_reset, resetBlock]

/-! ### The soft-reset sequence -/

/-- After ABORT the block is in IDLE, so that CHUNK_START is accepted whatever mode came before (R115, R101). -/
theorem exec_cmdChunkStart_abort (g : BitVec 28) (s : State) :
    exec (.cmdChunkStart g) (abort s) = .next (chunkStart (abort s)) :=
  congrArg Host.Outcome.next (whenStartable_startable chunkStart (congrArg startable (abort_mode s)))

/-- CHUNK_START clears the counters and seeds CRC_STATE, the second ABORT clears STATUS: what is left of a reset is TAGCHK and
IGN, which neither command writes (R331, R201, R115). -/
theorem abort_chunkStart_abort (s : State) :
    abort (chunkStart (abort s)) = { resetBlock s with ign := s.ign, tagchk := s.tagchk } := rfl

/-- Settles O37: after the three commands of `abort_chunkStart_abort`, the write of 0 and CLR_IGN give TAGCHK and IGN their
reset values. -/
theorem softResetSequence : Obligations.SoftResetSequence := by
  intro s
  refine ⟨abort s, chunkStart (abort s), abort (chunkStart (abort s)), _, _, rfl, exec_cmdChunkStart_abort 0#28 s, rfl, rfl,
    rfl, ?last⟩
  case last => rw [abort_chunkStart_abort]; rfl

end Sys2Proof.Machine
end
